-- ==== Sys2Proof/Word.lean ====
section
/-! DEFINITION. The words of the GFAES-128 core: a Byte, a Word and a 128-bit block of four words (00_scope.md R8).
Every value is unsigned (R11). -/

namespace Sys2Proof

/-- An 8-bit value, also an element of GF(2^8): bit `i` is the coefficient of x^i (R8, R19). -/
abbrev Byte := BitVec 8

/-- A 32-bit register value: four bytes, one column of a state or key matrix (R8). -/
abbrev Word := BitVec 32

/-- 128 bits as four words, word `c` being column `c` of the 4×4 byte matrix (R8, R13): the type of the key, of the
cipher state and of one round key. -/
structure Block where
  w0 : Word
  w1 : Word
  w2 : Word
  w3 : Word
  deriving DecidableEq, Repr

end Sys2Proof
end

