-- ==== Sys2Proof/Syntax.lean ====
section
/-! DEFINITION. The commands of the GFAES-128 core, one constructor for each row of the opcode map (30_encoding.md R83). -/

namespace Sys2Proof

/-- A decoded command. Operand `a` is bits [15:8] of the command word, `b` and the indices are bits [7:0] (R80, R81); an
index is kept as the byte that was written, since decoding does not check its range (R84). -/
inductive Instr where
  | nop                      -- 46_control.md R200
  | gfAdd (a b : Byte)       -- 40_gf_arithmetic.md R105
  | gfXtime (a : Byte)       -- 40_gf_arithmetic.md R106
  | gfMul (a b : Byte)       -- 40_gf_arithmetic.md R107
  | gfInv (a : Byte)         -- 41_inverse.md R123
  | gfSbox (a : Byte)        -- 42_sbox.md R134
  | gfRcon (i : Byte)        -- 44_key_schedule.md R165
  | subBytes                 -- 43_state_transforms.md R145
  | shiftRows                -- 43_state_transforms.md R146
  | mixColumns               -- 43_state_transforms.md R147
  | addRoundKey (k : Byte)   -- 43_state_transforms.md R148
  | expandKey                -- 44_key_schedule.md R166
  | cipherRound (r : Byte)   -- 45_cipher.md R182
  | encrypt                  -- 45_cipher.md R183
  deriving DecidableEq, Repr

end Sys2Proof
end

