-- ==== Sys2Proof/Decode.lean ====
section
/-! DEFINITION. The command word, its decoder and its encoder (30_encoding.md R80 to R87). Every command is one 32-bit
value written to CMD; the block has no byte-wise view of it (20_memory.md R52, R53), so the decoder reads a `Word`. -/

namespace Sys2Proof

/-! ## The fields of a command word (R80) -/

/-- OPC, bits [31:24]. -/
def opcOf (v : Word) : Byte := v.extractLsb' 24 8

/-- RSV, bits [23:16], which must be 0. -/
def rsvOf (v : Word) : Byte := v.extractLsb' 16 8

/-- A, bits [15:8]. -/
def aOf (v : Word) : Byte := v.extractLsb' 8 8

/-- B, bits [7:0]. -/
def bOf (v : Word) : Byte := v.extractLsb' 0 8

/-- The word with the four given fields. -/
def packFields (opc rsv a b : Byte) : Word := opc ++ rsv ++ a ++ b

/-! ## Decoding (R84) -/

/-- Why a word is no command: the three cases of R85. -/
inductive IllegalReason where
  | reservedFieldNonzero   -- RSV is not 0
  | unknownOpcode          -- OPC is none of the 14 values of R83
  | unusedFieldNonzero     -- a field that R83 marks "0" is not 0
  deriving DecidableEq, Repr

/-- What a word decodes to. -/
inductive Decoded where
  | command (i : Instr)
  | illegal (why : IllegalReason)
  deriving DecidableEq, Repr

/-- The command `i` if both operand fields are 0. -/
def decodeNoOperand (v : Word) (i : Instr) : Decoded :=
  if aOf v = 0 ∧ bOf v = 0 then .command i else .illegal .unusedFieldNonzero

/-- The command `f a` if field B is 0. -/
def decodeOnlyA (v : Word) (f : Byte → Instr) : Decoded :=
  if bOf v = 0 then .command (f (aOf v)) else .illegal .unusedFieldNonzero

/-- The command `f b` if field A is 0. -/
def decodeOnlyB (v : Word) (f : Byte → Instr) : Decoded :=
  if aOf v = 0 then .command (f (bOf v)) else .illegal .unusedFieldNonzero

/-- The command `f a b`. -/
def decodeAB (v : Word) (f : Byte → Byte → Instr) : Decoded := .command (f (aOf v) (bOf v))

/-- R84, case by case and in its order; total on every 32-bit word. -/
def decode (v : Word) : Decoded :=
  if rsvOf v ≠ 0 then .illegal .reservedFieldNonzero
  else
    match (opcOf v).toNat with
    | 0x00 => decodeNoOperand v .nop
    | 0x01 => decodeAB v .gfAdd
    | 0x02 => decodeOnlyA v .gfXtime
    | 0x03 => decodeAB v .gfMul
    | 0x04 => decodeOnlyA v .gfInv
    | 0x05 => decodeOnlyA v .gfSbox
    | 0x06 => decodeOnlyB v .gfRcon
    | 0x10 => decodeNoOperand v .subBytes
    | 0x11 => decodeNoOperand v .shiftRows
    | 0x12 => decodeNoOperand v .mixColumns
    | 0x13 => decodeOnlyB v .addRoundKey
    | 0x20 => decodeNoOperand v .expandKey
    | 0x30 => decodeOnlyB v .cipherRound
    | 0x31 => decodeNoOperand v .encrypt
    | _ => .illegal .unknownOpcode

/-! ## Encoding (R83) -/

/-- The row's OPC. -/
def opcodeOf : Instr → Byte
  | .nop => 0x00
  | .gfAdd _ _ => 0x01
  | .gfXtime _ => 0x02
  | .gfMul _ _ => 0x03
  | .gfInv _ => 0x04
  | .gfSbox _ => 0x05
  | .gfRcon _ => 0x06
  | .subBytes => 0x10
  | .shiftRows => 0x11
  | .mixColumns => 0x12
  | .addRoundKey _ => 0x13
  | .expandKey => 0x20
  | .cipherRound _ => 0x30
  | .encrypt => 0x31

/-- The row's A field: the first byte operand, or 0. -/
def operandAOf : Instr → Byte
  | .gfAdd a _ | .gfXtime a | .gfMul a _ | .gfInv a | .gfSbox a => a
  | .nop | .gfRcon _ | .subBytes | .shiftRows | .mixColumns => 0
  | .addRoundKey _ | .expandKey | .cipherRound _ | .encrypt => 0

/-- The row's B field: the second byte operand or the index, or 0. -/
def operandBOf : Instr → Byte
  | .gfAdd _ b | .gfMul _ b => b
  | .gfRcon i => i
  | .addRoundKey k => k
  | .cipherRound r => r
  | .nop | .gfXtime _ | .gfInv _ | .gfSbox _ => 0
  | .subBytes | .shiftRows | .mixColumns | .expandKey | .encrypt => 0

/-- The one word of a command. -/
def encode (i : Instr) : Word := packFields (opcodeOf i) 0 (operandAOf i) (operandBOf i)

/-! ## The host's view of an opcode-table row -/

/-- The 32-bit command word whose low `nbits` bits are those of `w` and whose other bits are 0. -/
def tableWord (nbits w : Nat) : Word := BitVec.ofNat 32 (w % 2 ^ nbits)

/-- The instruction the decoder reads from a row's bits. A command is one 32-bit word (R87), so no row is longer. -/
def decodeTableWord (nbits w : Nat) : Option Instr :=
  if nbits ≤ 32 then
    match decode (tableWord nbits w) with
    | .command i => some i
    | .illegal _ => none
  else none

end Sys2Proof
end

