-- ==== Sys2Proof/Config.lean ====
section
/-! DEFINITION. What the platform or the implementation fixes, and the free values (00_scope.md R9, R17).
Each is an opaque constant: no proof can see what it is, so a claim holds whatever it is. The two parameters of R9 that
are not here, `LAT` and `RESET_SIGNAL`, are the choice of WHEN a completion or a reset happens: in this model that is the
place of the event in `Machine.State.events` (assumption log entries 3 and 9). -/

namespace Sys2Proof

/-- How the bus answers an access error, besides the block's own ACCESS_ERROR (R9, R52, D34). -/
inductive BusResponse where
  | okay
  | slaveError
  deriving DecidableEq, Repr, Inhabited

/-- `BUS_ERR_RESPONSE` of R9: which of the two the platform's bus uses. -/
opaque Config.busErrResponse : BusResponse

/-- The number of the 256-byte page of the platform's address space that holds the register window: `BASE / 256`. -/
opaque Config.basePage : Nat

/-- `BASE` of R9 and R50: the byte address of the register window, a multiple of 256. -/
def Config.base : Nat := 256 * Config.basePage

/-- `any_u32()` of R17: the value of draw number `n`. Nothing is known of any draw, nor that two draws are equal or differ;
the step numbers the draws by `Machine.State.draws`. -/
opaque Config.anyU32 : Nat → Word

end Sys2Proof
end

