-- ==== Sys2Proof/Machine/State.lean ====
section
/-! DEFINITION. The state of the block, what the Host and the Core can do next, and the reasons a step can stop
(10_state.md). State is plain data. Three of its fields are the model's own and no register of the block: `events`,
`responses` and `draws`. -/

namespace Sys2Proof.Machine

/-- The error codes of 60_exceptions.md R212, but for 0 NONE, which is ERR_CODE when no error is latched. -/
inductive ErrorCode where
  | illegalCommand      -- 1: a CMD word that decodes to no command
  | illegalOperand      -- 2: an index operand out of its range
  | keyNotLoaded        -- 3: KEY_VALID is not 0xF
  | stateNotLoaded      -- 4: STATE_VALID is not 0xF
  | roundKeysNotValid   -- 5: RK_VALID is 0
  | busyViolation       -- 6: CMD, KEY or STATE written while BUSY
  | accessError         -- 7: not a 4-byte aligned access
  | shapeMismatch       -- 8: reserved, nothing raises it (R144)
  deriving DecidableEq, Repr

/-- The fields of STATUS (R28). Its reserved bits hold nothing: they read 0 and ignore writes. -/
structure Status where
  busy : Bool
  err : Bool
  errCode : BitVec 4
  keyValid : BitVec 4
  stateValid : BitVec 4
  rkValid : Bool
  deriving DecidableEq, Repr

/-- A read, or a write of a value. For an access that is not 4 bytes wide the value is never looked at (R52). -/
inductive AccessKind where
  | read
  | write (v : Word)
  deriving DecidableEq, Repr

/-- One host bus access inside the register window: its offset, its width in bytes, its kind (R15, R50). -/
structure Access where
  off : Byte
  size : Nat
  kind : AccessKind
  deriving DecidableEq, Repr

/-- One event of the block's single total order of events (20_memory.md R62): a Host access, the Core's completion step, or
reset. -/
inductive Event where
  | access (a : Access)
  | complete
  | reset
  deriving DecidableEq, Repr

/-- What the bus answers to an access. -/
inductive Response where
  | readData (v : Word)                          -- a legal read returned `v`
  | readError (size : Nat) (bus : BusResponse)   -- an access-error read: `size` bytes, each 0 (R52)
  | writeDone                                    -- a legal write
  | writeError (bus : BusResponse)               -- an access-error write (R52)
  deriving DecidableEq, Repr

/-- The machine. CMD is no field: it stores nothing (R27). -/
structure State where
  key : Block              -- KEY[0..3], R22
  state : Block            -- STATE[0..3], R23
  rk : Vector Word 44      -- RK[0..43], R25
  gfResult : Byte          -- GF_RESULT[7:0]; bits [31:8] are always 0, R26
  status : Status          -- STATUS, R28
  pending : Option Instr   -- PENDING, the command in flight, R34
  events : List Event      -- the model's own: the events to come, the next one first
  responses : List Response -- the model's own: what the bus has answered, the latest first
  draws : Nat              -- the model's own: how many free values have been drawn
  deriving DecidableEq, Repr

/-- Why a step stops. The spec gives the block no way to stop: it reports every error in STATUS (R210). Both reasons belong
to states in which STATUS and PENDING contradict R34 or R216, which no run from reset reaches, and both are SAFE. -/
inductive Fault where
  /-- Raised by `commandLifeCycle` and by `coreStep`: BUSY is 1 and PENDING does not hold the command to complete, against
  R34. Safe: the spec gives such a state no meaning. -/
  | commandNotInFlight
  /-- Raised by the completion of GF_RCON, ADD_ROUND_KEY and CIPHER_ROUND: the command in flight has an index the issue
  refuses (R216 step 4), for which `rcon` or the round key is not defined (R160, R25). Safe: it was never accepted. -/
  | indexNotDefined
  deriving DecidableEq, Repr

/-- Why the model has no meaning for an instruction. -/
inductive Refusal where
  /-- Raised by `exec` alone, for an instruction with no meaning yet. Safe. No arm raises it now. -/
  | notModelled (mnemonic : String)
  deriving DecidableEq, Repr

/-- Four zero words. -/
def zeroBlock : Block := ⟨0, 0, 0, 0⟩

/-- Every STATUS field 0. -/
def Status.reset : Status :=
  { busy := false, err := false, errCode := 0, keyValid := 0, stateValid := 0, rkValid := false }

/-- Right after reset every register and every STATUS field is 0 and PENDING is none (R37, R240). The model's own fields:
no event is placed yet, nothing has been answered or drawn (assumption log entry 2). -/
def State.reset : State where
  key := zeroBlock
  state := zeroBlock
  rk := Vector.replicate 44 0
  gfResult := 0
  status := Status.reset
  pending := none
  events := []
  responses := []
  draws := 0

end Sys2Proof.Machine
end

