-- ==== Sys2Proof/Machine/Operands.lean ====
section
/-! DEFINITION. Operands: bytes inside words, the matrix view of a block, index operands and the round-key operand
(00_scope.md R11 to R14, 30_encoding.md R81, R86). -/

namespace Sys2Proof

/-- `byte(w, i)` of R12: byte 0 is the most significant byte. -/
def byteOf (w : Word) (i : Fin 4) : Byte := w.extractLsb' (24 - 8 * i.val) 8

/-- `word(b0, b1, b2, b3)` of R12. -/
def wordOf (b0 b1 b2 b3 : Byte) : Word := b0 ++ b1 ++ b2 ++ b3

/-- `zext_32` of R11, for a byte. -/
def zext32 (b : Byte) : Word := b.setWidth 32

/-- Word `c` of a block: column `c` of its matrix (R13). -/
def Block.word (s : Block) : Fin 4 → Word
  | 0 => s.w0
  | 1 => s.w1
  | 2 => s.w2
  | 3 => s.w3

/-- The block with word `c` replaced. -/
def Block.setWord (s : Block) (c : Fin 4) (v : Word) : Block :=
  match c with
  | 0 => { s with w0 := v }
  | 1 => { s with w1 := v }
  | 2 => { s with w2 := v }
  | 3 => { s with w3 := v }

/-- `s[r][c] = byte(W[c], r)`: row `r` of column `c` (R13, R24). -/
def Block.cell (s : Block) (r c : Fin 4) : Byte := byteOf (s.word c) r

/-- Column `c` of the matrix `f r c`, as a word. -/
def columnOf (f : Fin 4 → Fin 4 → Byte) (c : Fin 4) : Word := wordOf (f 0 c) (f 1 c) (f 2 c) (f 3 c)

/-- The block whose matrix is `f r c`. -/
def Block.ofCells (f : Fin 4 → Fin 4 → Byte) : Block :=
  ⟨columnOf f 0, columnOf f 1, columnOf f 2, columnOf f 3⟩

namespace Machine

/-- The index operand of GF_RCON, if it is in 1..10 (R86). -/
def rconIndex (b : Byte) : Option Nat :=
  if 1 ≤ b.toNat ∧ b.toNat ≤ 10 then some b.toNat else none

/-- The index operand of ADD_ROUND_KEY and CIPHER_ROUND, if it is in 0..10 (R86). -/
def roundIndex (b : Byte) : Option (Fin 11) :=
  if h : b.toNat < 11 then some ⟨b.toNat, h⟩ else none

/-- `RKEY(k) = {RK[4k], RK[4k+1], RK[4k+2], RK[4k+3]}` (R14, R25). -/
def rkey (rk : Vector Word 44) (k : Fin 11) : Block :=
  ⟨rk[4 * k.val], rk[4 * k.val + 1], rk[4 * k.val + 2], rk[4 * k.val + 3]⟩

end Machine

end Sys2Proof
end

