-- ==== Sys2Proof/Machine/Flags.lean ====
section
/-! DEFINITION. STATUS: its value as read, and everything that changes one of its fields (10_state.md R28 to R33,
60_exceptions.md R211, R212, R215). -/

namespace Sys2Proof.Machine

/-- The 4-bit ERR_CODE of an error (R212). -/
def ErrorCode.code : ErrorCode → BitVec 4
  | .illegalCommand => 1
  | .illegalOperand => 2
  | .keyNotLoaded => 3
  | .stateNotLoaded => 4
  | .roundKeysNotValid => 5
  | .busyViolation => 6
  | .accessError => 7
  | .shapeMismatch => 8

/-- STATUS as the host reads it (R28): `zext_32({RK_VALID, STATE_VALID, KEY_VALID, ERR_CODE, 0b00, ERR, BUSY})`. -/
def Status.toWord (st : Status) : Word :=
  0#15 ++ BitVec.ofBool st.rkValid ++ st.stateValid ++ st.keyValid ++ st.errCode ++ 0#2 ++ BitVec.ofBool st.err
    ++ BitVec.ofBool st.busy

/-- `LatchError(code)` (R211): the first error since the last clear is kept. -/
def Status.latch (st : Status) (e : ErrorCode) : Status :=
  if st.err then st else { st with err := true, errCode := e.code }

/-- Return from an error (R215): ERR and ERR_CODE become 0, nothing else is restored. -/
def Status.clearError (st : Status) : Status := { st with err := false, errCode := 0 }

/-- What a host write of `v` to STATUS does (R30, R56): only bit 1 is looked at. -/
def Status.write (st : Status) (v : Word) : Status := if v.getLsbD 1 then st.clearError else st

/-- An accepted write to KEY[j] (R31, R33): KEY_VALID[j] is set, RK_VALID is cleared. -/
def Status.keyWritten (st : Status) (j : Fin 4) : Status :=
  { st with keyValid := st.keyValid ||| 1#4 <<< j.val, rkValid := false }

/-- An accepted write to STATE[c] (R32): STATE_VALID[c] is set. -/
def Status.stateWritten (st : Status) (c : Fin 4) : Status :=
  { st with stateValid := st.stateValid ||| 1#4 <<< c.val }

/-- A command is accepted: BUSY rises (R216 step 8). -/
def Status.started (st : Status) : Status := { st with busy := true }

/-- A command has completed: BUSY falls (R250). -/
def Status.finished (st : Status) : Status := { st with busy := false }

/-- EXPAND_KEY and ENCRYPT set RK_VALID at completion (R33). -/
def Status.roundKeysWritten (st : Status) : Status := { st with rkValid := true }

end Sys2Proof.Machine
end

