-- ==== Sys2Proof/Machine/Ops.lean ====
section
/-! DEFINITION. The named operations over the registers: writing each register, taking an error and returning from one,
the issue checks, accepting a command and completing it, the register map (10_state.md, 20_memory.md, 60_exceptions.md). -/

namespace Sys2Proof.Machine

/-! ## Writing registers -/

/-- An accepted host write to KEY[j] (R22, R56). -/
def State.writeKey (s : State) (j : Fin 4) (v : Word) : State :=
  { s with key := s.key.setWord j v, status := s.status.keyWritten j }

/-- An accepted host write to STATE[c] (R23, R56). -/
def State.writeState (s : State) (c : Fin 4) (v : Word) : State :=
  { s with state := s.state.setWord c v, status := s.status.stateWritten c }

/-- `GF_RESULT <- zext_32(v)`: the upper bits are always 0 and hold nothing (R26). -/
def State.setGfResult (s : State) (v : Byte) : State := { s with gfResult := v }

/-- `STATE <- S`, all four words at once (R14, R23). -/
def State.setState (s : State) (b : Block) : State := { s with state := b }

/-- `RK[0..43] <- r`, all 44 words at once, and RK_VALID becomes 1 (R25, R33). -/
def State.setRoundKeys (s : State) (r : Vector Word 44) : State :=
  { s with rk := r, status := s.status.roundKeysWritten }

/-! ## Errors: taking one, and returning from one -/

/-- `raise Error(code)` (R16, R211, R213): the latch, and nothing else. There is no vector, no saved register and no mode. -/
def State.latchError (s : State) (e : ErrorCode) : State := { s with status := s.status.latch e }

/-- A host write to STATUS (R30, R56); with bit 1 set it is the return from an error (R215). -/
def State.writeStatus (s : State) (v : Word) : State := { s with status := s.status.write v }

/-! ## The issue checks (R216 steps 4 to 7) -/

/-- Step 4, for a command whose index operand reads as `idx`. -/
def needIndex {α : Type} (idx : Option α) : Option ErrorCode :=
  match idx with
  | some _ => none
  | none => some .illegalOperand

/-- Step 5, for a command that reads KEY. -/
def needKey (s : State) : Option ErrorCode := if s.status.keyValid = 0xF then none else some .keyNotLoaded

/-- Step 6, for a command that reads STATE. -/
def needState (s : State) : Option ErrorCode := if s.status.stateValid = 0xF then none else some .stateNotLoaded

/-- Step 7, for a command that reads RK. -/
def needRoundKeys (s : State) : Option ErrorCode := if s.status.rkValid then none else some .roundKeysNotValid

/-- The error of the first check that fails, if one does. -/
def firstError : List (Option ErrorCode) → Option ErrorCode
  | [] => none
  | some e :: _ => some e
  | none :: rest => firstError rest

/-! ## The life of a command -/

/-- R216 step 8: PENDING takes the command and BUSY rises. -/
def State.accept (s : State) (i : Instr) : State := { s with pending := some i, status := s.status.started }

/-- The end of R250: PENDING becomes none and BUSY falls. -/
def State.retire (s : State) : State := { s with pending := none, status := s.status.finished }

/-- What the block does with the command `i`, whose own part is given by `checks` (its issue checks in order) and `effect`
(its completion; none where an index of it is not defined).
With BUSY = 0 the command is being issued: it is dropped while ERR = 1 (R214), else the first check that fails is latched,
else it is accepted (R216 steps 2 and 4 to 8). With BUSY = 1 it is the command in flight and this is its completion, one
atomic step (R250). A CMD write made while BUSY = 1 never comes here: `issue` turns it away first (R216 step 1). -/
def commandLifeCycle (i : Instr) (checks : State → List (Option ErrorCode)) (effect : State → Option State) (s : State) :
    Host.Outcome State Fault Refusal :=
  if s.status.busy then
    if s.pending = some i then
      match effect s with
      | some t => .next t.retire
      | none => .fault .indexNotDefined
    else .fault .commandNotInFlight
  else if s.status.err then .next s
  else
    match firstError (checks s) with
    | some e => .next (s.latchError e)
    | none => .next (s.accept i)

/-- A byte command (40_gf_arithmetic.md): no check of its own beyond `checks`; its completion writes GF_RESULT and nothing
else. `v` is none where the operand has no result. -/
def byteCommand (i : Instr) (checks : List (Option ErrorCode)) (v : Option Byte) :
    State → Host.Outcome State Fault Refusal :=
  commandLifeCycle i (fun _ => checks) fun s => v.map s.setGfResult

/-- A state command (43_state_transforms.md): its completion computes a block from the registers as they were at issue and
writes all four words of STATE, and nothing else (D36). `f` answers none where the index is not defined. -/
def stateCommand (i : Instr) (checks : State → List (Option ErrorCode)) (f : State → Option Block) :
    State → Host.Outcome State Fault Refusal :=
  commandLifeCycle i checks fun s => (f s).map s.setState

/-! ## The register map (R51) -/

/-- The registers of the window. -/
inductive Reg where
  | cmd
  | status
  | gfResult
  | key (j : Fin 4)
  | state (c : Fin 4)
  | rk (w : Fin 44)
  | reserved
  deriving DecidableEq, Repr

/-- The register at a 4-byte aligned offset (R51); every offset the map does not name is reserved (R57). -/
def regAt (off : Byte) : Reg :=
  let n := off.toNat
  if n = 0x00 then .cmd
  else if n = 0x04 then .status
  else if n = 0x08 then .gfResult
  else if h : 0x10 ≤ n ∧ n < 0x20 then .key ⟨(n - 0x10) / 4, by omega⟩
  else if h : 0x20 ≤ n ∧ n < 0x30 then .state ⟨(n - 0x20) / 4, by omega⟩
  else if h : 0x40 ≤ n ∧ n < 0xF0 then .rk ⟨(n - 0x40) / 4, by omega⟩
  else .reserved

/-- `off(R)` of R88 (R51); for `reserved` the first reserved offset. -/
def Reg.offset : Reg → Byte
  | .cmd => 0x00
  | .status => 0x04
  | .gfResult => 0x08
  | .key j => 0x10 + 4 * BitVec.ofNat 8 j.val
  | .state c => 0x20 + 4 * BitVec.ofNat 8 c.val
  | .rk w => 0x40 + 4 * BitVec.ofNat 8 w.val
  | .reserved => 0x0C

/-- A legal access is 4 bytes wide at a multiple of 4 (R52). -/
def Access.legal (a : Access) : Bool := decide (a.size = 4 ∧ a.off.toNat % 4 = 0)

/-- The access the block sees of a host access of `n` bytes at byte address `addr`: only those inside the window (R15, R50). -/
def windowAccess (addr n : Nat) (kind : AccessKind) : Option Access :=
  if Config.base ≤ addr ∧ addr < Config.base + 256 then
    some { off := BitVec.ofNat 8 (addr - Config.base), size := n, kind := kind }
  else none

/-! ## Reading registers (R55) -/

/-- The registers whose value is not specified while BUSY = 1 (R36). -/
def Reg.holdsData : Reg → Bool
  | .gfResult | .key _ | .state _ | .rk _ => true
  | .cmd | .status | .reserved => false

/-- The value of a register as it is read while BUSY = 0; STATUS and the registers that read 0 read so at any time. -/
def State.regValue (s : State) : Reg → Word
  | .cmd => 0
  | .status => s.status.toWord
  | .gfResult => zext32 s.gfResult
  | .key j => s.key.word j
  | .state c => s.state.word c
  | .rk w => s.rk[w.val]
  | .reserved => 0

/-- The value a legal read returns: a free value for a data register while BUSY = 1, the register's value otherwise. -/
def State.readValue (s : State) (r : Reg) : Word :=
  if s.status.busy ∧ r.holdsData then Config.anyU32 s.draws else s.regValue r

/-! ## The model's own fields -/

/-- The bus has answered `r`. -/
def State.respond (s : State) (r : Response) : State := { s with responses := r :: s.responses }

/-- The events still to come are `es`. -/
def State.setEvents (s : State) (es : List Event) : State := { s with events := es }

/-- A legal read: it answers the value and changes no register; a read of an unspecified value takes a fresh draw (R17). -/
def State.answerRead (s : State) (r : Reg) : State :=
  { s with
    responses := .readData (s.readValue r) :: s.responses
    draws := if s.status.busy ∧ r.holdsData then s.draws + 1 else s.draws }

/-- The reset event (R240): every register, STATUS field and PENDING takes its reset value, so a command in flight is
abandoned. The events to come, the answers given and the count of draws are no state of the block and stay. -/
def State.resetEvent (s : State) : State :=
  { State.reset with events := s.events, responses := s.responses, draws := s.draws }

end Sys2Proof.Machine
end

