-- ==== Sys2Proof/Machine/Control.lean ====
section
/-! DEFINITION. The command NOP (46_control.md). -/

namespace Sys2Proof.Machine

/-- NOP (R200): it is issued and completes like any command, and its completion changes no register. -/
def execNop : State → Host.Outcome State Fault Refusal :=
  commandLifeCycle .nop (fun _ => []) some

end Sys2Proof.Machine
end

