-- ==== Sys2Proof/Machine/GfArithmetic.lean ====
section
/-! DEFINITION. GF(2^8) arithmetic and the commands GF_ADD, GF_XTIME, GF_MUL (40_gf_arithmetic.md). -/

namespace Sys2Proof.Machine

/-- `gf_add` (R100): field addition, and subtraction. -/
def gfAdd (a b : Byte) : Byte := a ^^^ b

/-- `xtime` (R101), the document's multiply-by-x: bit 7 is tested before the shift. -/
def xtime (a : Byte) : Byte := (a <<< 1) ^^^ (if a.getLsbD 7 then 0x1B else 0x00)

/-- One iteration of R102 for bit `i` of `b`: the accumulator is doubled, then XORed with `a` if the bit is set. -/
def gfMulStep (a b : Byte) (i : Nat) (t : Byte) : Byte :=
  if b.getLsbD i then xtime t ^^^ a else xtime t

/-- The iterations of R102 for the bits `n - 1` down to 0 of `b`. -/
def gfMulBits (a b : Byte) : Nat → Byte → Byte
  | 0, t => t
  | i + 1, t => gfMulBits a b i (gfMulStep a b i t)

/-- `gf_mul` (R102): the bits of `b` from 7 down to 0, the accumulator starting at 0. -/
def gfMul (a b : Byte) : Byte := gfMulBits a b 8 0x00

/-- GF_ADD (R105). -/
def execGfAdd (a b : Byte) : State → Host.Outcome State Fault Refusal :=
  byteCommand (.gfAdd a b) [] (some (gfAdd a b))

/-- GF_XTIME (R106). -/
def execGfXtime (a : Byte) : State → Host.Outcome State Fault Refusal :=
  byteCommand (.gfXtime a) [] (some (xtime a))

/-- GF_MUL (R107). -/
def execGfMul (a b : Byte) : State → Host.Outcome State Fault Refusal :=
  byteCommand (.gfMul a b) [] (some (gfMul a b))

end Sys2Proof.Machine
end

