-- ==== Sys2Proof/Machine/Inverse.lean ====
section
/-! DEFINITION. The multiplicative inverse and the command GF_INV (41_inverse.md). -/

namespace Sys2Proof.Machine

/-- `gf_inv` (R120): a^254 by the chain 2, 3, 6, 12, 15, 30, 60, 120, 240, 252, 254 of eleven multiplications. It gives 0
for 0, with no error (R121). -/
def gfInv (a : Byte) : Byte :=
  let a2 := gfMul a a
  let a3 := gfMul a2 a
  let a6 := gfMul a3 a3
  let a12 := gfMul a6 a6
  let a15 := gfMul a12 a3
  let a30 := gfMul a15 a15
  let a60 := gfMul a30 a30
  let a120 := gfMul a60 a60
  let a240 := gfMul a120 a120
  let a252 := gfMul a240 a12
  gfMul a252 a2

/-- GF_INV (R123). -/
def execGfInv (a : Byte) : State → Host.Outcome State Fault Refusal :=
  byteCommand (.gfInv a) [] (some (gfInv a))

end Sys2Proof.Machine
end

