-- ==== Sys2Proof/Machine/Sbox.lean ====
section
/-! DEFINITION. The substitution box and the command GF_SBOX (42_sbox.md). -/

namespace Sys2Proof.Machine

/-- `rotl8` (R130), used for `n` in 1..4. -/
def rotl8 (b : Byte) (n : Nat) : Byte := (b <<< n) ||| (b >>> (8 - n))

/-- The affine transform of R131 applied to an inverse `b`. -/
def sboxAffine (b : Byte) : Byte := b ^^^ rotl8 b 1 ^^^ rotl8 b 2 ^^^ rotl8 b 3 ^^^ rotl8 b 4 ^^^ 0x63

/-- `sbox` (R131), computed: the block holds no table. -/
def sbox (a : Byte) : Byte := sboxAffine (gfInv a)

/-- GF_SBOX (R134). -/
def execGfSbox (a : Byte) : State → Host.Outcome State Fault Refusal :=
  byteCommand (.gfSbox a) [] (some (sbox a))

end Sys2Proof.Machine
end

