-- ==== Sys2Proof/Machine/KeySchedule.lean ====
section
/-! DEFINITION. The round constants, the key expansion and the commands GF_RCON, EXPAND_KEY (44_key_schedule.md). -/

namespace Sys2Proof.Machine

/-- The round constant of round `n + 1` (R160): 1 for round 1, then each the double of the one before. -/
def rconFromOne : Nat → Byte
  | 0 => 0x01
  | n + 1 => xtime (rconFromOne n)

/-- `rcon` (R160), defined for `i` in 1..10; no caller asks for another `i`. -/
def rcon (i : Nat) : Byte := rconFromOne (i - 1)

/-- `rot_up` (R162): the bytes (b0, b1, b2, b3) become (b1, b2, b3, b0). -/
def rotUp (w : Word) : Word := wordOf (byteOf w 1) (byteOf w 2) (byteOf w 3) (byteOf w 0)

/-- `sub_word` (R162). -/
def subWord (w : Word) : Word :=
  wordOf (sbox (byteOf w 0)) (sbox (byteOf w 1)) (sbox (byteOf w 2)) (sbox (byteOf w 3))

/-- Round key `i` from round key `i - 1`, one turn of the loop of R163. -/
def nextRoundKey (i : Nat) (p : Block) : Block :=
  let t := subWord (rotUp p.w3) ^^^ (zext32 (rcon i) <<< 24)
  let c0 := t ^^^ p.w0
  let c1 := c0 ^^^ p.w1
  let c2 := c1 ^^^ p.w2
  let c3 := c2 ^^^ p.w3
  ⟨c0, c1, c2, c3⟩

/-- Round key `i` of the key `k` (R163): round key 0 is the key itself. -/
def roundKey (k : Block) : Nat → Block
  | 0 => k
  | i + 1 => nextRoundKey (i + 1) (roundKey k i)

/-- `expand_key` (R163): `RK[4i + c]` is column `c` of round key `i`. -/
def expandKey (k : Block) : Vector Word 44 :=
  Vector.ofFn fun w => (roundKey k (w.val / 4)).word ⟨w.val % 4, Nat.mod_lt _ (by decide)⟩

/-- GF_RCON (R165). -/
def execGfRcon (i : Byte) : State → Host.Outcome State Fault Refusal :=
  byteCommand (.gfRcon i) [needIndex (rconIndex i)] ((rconIndex i).map rcon)

/-- EXPAND_KEY (R166). -/
def execExpandKey : State → Host.Outcome State Fault Refusal :=
  commandLifeCycle .expandKey (fun s => [needKey s]) fun s => some (s.setRoundKeys (expandKey s.key))

end Sys2Proof.Machine
end

