-- ==== Sys2Proof/Machine/StateTransforms.lean ====
section
/-! DEFINITION. The four state transforms and the commands SUB_BYTES, SHIFT_ROWS, MIX_COLUMNS, ADD_ROUND_KEY
(43_state_transforms.md). Each is a function from a whole block to a whole block (D36). -/

namespace Sys2Proof.Machine

/-- `sub_bytes` (R140). -/
def subBytes (s : Block) : Block := .ofCells fun r c => sbox (s.cell r c)

/-- `shift_rows` (R141): `out[r][c] = s[r][(c + r) mod 4]`; addition of `Fin 4` is modulo 4. -/
def shiftRows (s : Block) : Block := .ofCells fun r c => s.cell r (c + r)

/-- The row `r` of the matrix `M` of R142. -/
def mixRow (r : Fin 4) : Fin 4 → Byte :=
  match r with
  | 0 => fun | 0 => 2 | 1 => 3 | 2 => 1 | 3 => 1
  | 1 => fun | 0 => 1 | 1 => 2 | 2 => 3 | 3 => 1
  | 2 => fun | 0 => 1 | 1 => 1 | 2 => 2 | 3 => 3
  | 3 => fun | 0 => 3 | 1 => 1 | 2 => 1 | 3 => 2

/-- `mix_columns` (R142). -/
def mixColumns (s : Block) : Block := .ofCells fun r c =>
  gfMul (mixRow r 0) (s.cell 0 c) ^^^ gfMul (mixRow r 1) (s.cell 1 c)
    ^^^ gfMul (mixRow r 2) (s.cell 2 c) ^^^ gfMul (mixRow r 3) (s.cell 3 c)

/-- `key_add` (R143). -/
def keyAdd (s k : Block) : Block := .ofCells fun r c => s.cell r c ^^^ k.cell r c

/-- SUB_BYTES (R145). -/
def execSubBytes : State → Host.Outcome State Fault Refusal :=
  stateCommand .subBytes (fun s => [needState s]) fun s => some (subBytes s.state)

/-- SHIFT_ROWS (R146). -/
def execShiftRows : State → Host.Outcome State Fault Refusal :=
  stateCommand .shiftRows (fun s => [needState s]) fun s => some (shiftRows s.state)

/-- MIX_COLUMNS (R147). -/
def execMixColumns : State → Host.Outcome State Fault Refusal :=
  stateCommand .mixColumns (fun s => [needState s]) fun s => some (mixColumns s.state)

/-- ADD_ROUND_KEY (R148). -/
def execAddRoundKey (k : Byte) : State → Host.Outcome State Fault Refusal :=
  stateCommand (.addRoundKey k) (fun s => [needIndex (roundIndex k), needState s, needRoundKeys s]) fun s =>
    (roundIndex k).map fun k => keyAdd s.state (rkey s.rk k)

end Sys2Proof.Machine
end

