-- ==== Sys2Proof/Machine/Rounds.lean ====
section
/-! DEFINITION. The rounds, the cipher and the commands CIPHER_ROUND, ENCRYPT (45_cipher.md). -/

namespace Sys2Proof.Machine

/-- `cipher_round` (R180) for the round `r` in 0..10, `rk` being all 44 round-key words. -/
def cipherRound (s : Block) (rk : Vector Word 44) (r : Fin 11) : Block :=
  if r.val = 0 then keyAdd s (rkey rk 0)
  else if r.val ≤ 9 then keyAdd (mixColumns (shiftRows (subBytes s))) (rkey rk r)
  else keyAdd (shiftRows (subBytes s)) (rkey rk r)

/-- A full round (R181 step 3). -/
def fullRound (rk : Vector Word 44) (s : Block) (round : Fin 11) : Block :=
  keyAdd (mixColumns (shiftRows (subBytes s))) (rkey rk round)

/-- `cipher` (R181), the document's `encrypt_block`. -/
def cipher (k p : Block) : Block :=
  let rk := expandKey k
  let s := keyAdd p (rkey rk 0)
  let s := [1, 2, 3, 4, 5, 6, 7, 8, 9].foldl (fullRound rk) s
  keyAdd (shiftRows (subBytes s)) (rkey rk 10)

/-- CIPHER_ROUND (R182). -/
def execCipherRound (r : Byte) : State → Host.Outcome State Fault Refusal :=
  stateCommand (.cipherRound r) (fun s => [needIndex (roundIndex r), needState s, needRoundKeys s]) fun s =>
    (roundIndex r).map (cipherRound s.state s.rk)

/-- ENCRYPT (R183): the round keys and the ciphertext are both computed from KEY and STATE as they were at issue, and
written in one step. -/
def execEncrypt : State → Host.Outcome State Fault Refusal :=
  commandLifeCycle .encrypt (fun s => [needKey s, needState s]) fun s =>
    some ((s.setRoundKeys (expandKey s.key)).setState (cipher s.key s.state))

end Sys2Proof.Machine
end

