-- ==== Sys2Proof/Machine/Dispatch.lean ====
section
/-! DEFINITION. What the block does with each command: its issue checks while BUSY = 0, its completion while BUSY = 1. -/

namespace Sys2Proof.Machine

def exec (i : Instr) (s : State) : Host.Outcome State Fault Refusal :=
  match i with
  | .nop => Sys2Proof.Machine.execNop s
  | .gfAdd a b => Sys2Proof.Machine.execGfAdd a b s
  | .gfXtime a => Sys2Proof.Machine.execGfXtime a s
  | .gfMul a b => Sys2Proof.Machine.execGfMul a b s
  | .gfInv a => Sys2Proof.Machine.execGfInv a s
  | .gfSbox a => Sys2Proof.Machine.execGfSbox a s
  | .gfRcon k => Sys2Proof.Machine.execGfRcon k s
  | .subBytes => Sys2Proof.Machine.execSubBytes s
  | .shiftRows => Sys2Proof.Machine.execShiftRows s
  | .mixColumns => Sys2Proof.Machine.execMixColumns s
  | .addRoundKey k => Sys2Proof.Machine.execAddRoundKey k s
  | .expandKey => Sys2Proof.Machine.execExpandKey s
  | .cipherRound r => Sys2Proof.Machine.execCipherRound r s
  | .encrypt => Sys2Proof.Machine.execEncrypt s

end Sys2Proof.Machine
end

