-- ==== Sys2Proof/Machine/Bus.lean ====
section
/-! DEFINITION. The host's accesses to the register window, the issue procedure and the Core's completion step
(20_memory.md R52 to R57, 60_exceptions.md R216, 70_reset_and_hazards.md R250). -/

namespace Sys2Proof.Machine

/-- `Issue(v)` (R216). The first three steps stand here; steps 4 to 8 depend on the command and are `exec` of it in a state
with BUSY = 0. -/
def issue (v : Word) (s : State) : Host.Outcome State Fault Refusal :=
  if s.status.busy then .next (s.latchError .busyViolation)
  else if s.status.err then .next s
  else
    match decode v with
    | .illegal _ => .next (s.latchError .illegalCommand)
    | .command i => exec i s

/-- `BusWrite(off, v)` (R56), for the register at `off`. Writes to GF_RESULT, RK and reserved offsets are ignored. -/
def writeReg (r : Reg) (v : Word) (s : State) : Host.Outcome State Fault Refusal :=
  match r with
  | .cmd => issue v s
  | .status => .next (s.writeStatus v)
  | .key j => if s.status.busy then .next (s.latchError .busyViolation) else .next (s.writeKey j v)
  | .state c => if s.status.busy then .next (s.latchError .busyViolation) else .next (s.writeState c v)
  | .gfResult | .rk _ | .reserved => .next s

/-- An access that is not legal (R52): ACCESS_ERROR is latched, no register changes, a read returns zeros. -/
def accessError (a : Access) (s : State) : State :=
  match a.kind with
  | .read => (s.latchError .accessError).respond (.readError a.size Config.busErrResponse)
  | .write _ => (s.latchError .accessError).respond (.writeError Config.busErrResponse)

/-- One host access (R52, R55, R56); the check of its width and alignment comes before everything else (R216). -/
def hostAccess (a : Access) (s : State) : Host.Outcome State Fault Refusal :=
  if a.legal then
    match a.kind with
    | .read => .next (s.answerRead (regAt a.off))
    | .write v => writeReg (regAt a.off) v (s.respond .writeDone)
  else .next (accessError a s)

/-- The Core's turn (R250): the completion of the command in flight, enabled exactly when BUSY = 1; otherwise the Core has
nothing to do. -/
def coreStep (s : State) : Host.Outcome State Fault Refusal :=
  if s.status.busy then
    match s.pending with
    | some i => exec i s
    | none => .fault .commandNotInFlight
  else .next s

/-- One event, already taken from the list of events to come. -/
def runEvent (e : Event) (s : State) : Host.Outcome State Fault Refusal :=
  match e with
  | .access a => hostAccess a s
  | .complete => coreStep s
  | .reset => .next s.resetEvent

/-- The state in which the next event is the legal write of a command word to CMD. -/
def State.withCommandWrite (s : State) (v : Word) : State :=
  s.setEvents (.access { off := Reg.cmd.offset, size := 4, kind := .write v } :: s.events)

end Sys2Proof.Machine
end

