-- ==== Sys2Proof/Machine/Step.lean ====
section
/-! DEFINITION. One step of the block: one event of its single total order (20_memory.md R62). -/

namespace Sys2Proof.Machine

/-- The next event happens. When no event is placed the Host is quiet, and it is the Core's turn: it completes a command in
flight (the weak fairness of R250), and an idle block holds all its registers (R225). -/
def step (s : State) : Host.Outcome State Fault Refusal :=
  match s.events with
  | [] => coreStep s
  | e :: rest => runEvent e (s.setEvents rest)

/-- The block fetches no instruction (R65): a command comes as a write to CMD. So the next event is made the host's write of
the word to CMD, before every event already placed (assumption log entry 4). -/
def State.withFetchWord (s : State) (nbits w : Nat) : State := s.withCommandWrite (tableWord nbits w)

end Sys2Proof.Machine
end

