-- ==== Sys2Proof/Machine/HostProgram.lean ====
section
/-! DEFINITION. The notation of host programs as events (30_encoding.md R88, R89). A statement of a host program is one
access; the completion steps stand where the schedule puts them. -/

namespace Sys2Proof.Machine

/-- `wr R, v` (R88). -/
def wr (r : Reg) (v : Word) : Event := .access { off := r.offset, size := 4, kind := .write v }

/-- `rd R` (R88). -/
def rd (r : Reg) : Event := .access { off := r.offset, size := 4, kind := .read }

/-- `cmd MNEMONIC …` is `wr CMD, <encoding>` (R88). -/
def cmd (i : Instr) : Event := wr .cmd (encode i)

/-- `poll` (R89) as it runs when the command in flight completes after `n` of its reads: the loop reads STATUS, `n` times
with BUSY = 1, then once with BUSY = 0. -/
def poll (n : Nat) : List Event := List.replicate n (rd .status) ++ [.complete, rd .status]

/-- `run MNEMONIC …` (R89). -/
def runPolled (i : Instr) (n : Nat) : List Event := cmd i :: poll n

/-- `loadkey K` (R89). -/
def loadKey (k : Block) : List Event := [wr (.key 0) k.w0, wr (.key 1) k.w1, wr (.key 2) k.w2, wr (.key 3) k.w3]

/-- `loadblock P` (R89). -/
def loadBlock (p : Block) : List Event :=
  [wr (.state 0) p.w0, wr (.state 1) p.w1, wr (.state 2) p.w2, wr (.state 3) p.w3]

/-- `readblock` (R89). -/
def readBlock : List Event := [rd (.state 0), rd (.state 1), rd (.state 2), rd (.state 3)]

/-- `clrerr` (R89). -/
def clrErr : Event := wr .status 0x00000002

/-- `gf_sqr a` (R89). -/
def gfSqr (a : Byte) : Event := cmd (.gfMul a a)

end Sys2Proof.Machine
end

