-- ==== Sys2Proof/WellFormed.lean ====
section
/-! DEFINITION. When a command is well formed: its index operand is one the document defines (30_encoding.md R86).
An ill-formed command still has an encoding; its issue is refused with ILLEGAL_OPERAND (60_exceptions.md R216 step 4). -/

namespace Sys2Proof

/-- GF_RCON takes 1..10; ADD_ROUND_KEY and CIPHER_ROUND take 0..10; no other command has a range (R86). -/
def Instr.wellFormed : Instr → Bool
  | .gfRcon i => decide (1 ≤ i.toNat ∧ i.toNat ≤ 10)
  | .addRoundKey k => decide (k.toNat ≤ 10)
  | .cipherRound r => decide (r.toNat ≤ 10)
  | .nop | .gfAdd _ _ | .gfXtime _ | .gfMul _ _ | .gfInv _ | .gfSbox _ => true
  | .subBytes | .shiftRows | .mixColumns | .expandKey | .encrypt => true

end Sys2Proof
end

