-- ==== Sys2Proof/Safety.lean ====
section
/-! DEFINITION. What counts as a safe state and a safe run, and the words the statements use. Nothing here is called by the
machine. -/

namespace Sys2Proof.Machine

/-- The commands R216 step 5 names: they read KEY. -/
def readsKey : Instr → Bool
  | .expandKey | .encrypt => true
  | .nop | .gfAdd _ _ | .gfXtime _ | .gfMul _ _ | .gfInv _ | .gfSbox _ | .gfRcon _ => false
  | .subBytes | .shiftRows | .mixColumns | .addRoundKey _ | .cipherRound _ => false

/-- The commands R216 step 6 names: they read STATE. -/
def readsState : Instr → Bool
  | .subBytes | .shiftRows | .mixColumns | .addRoundKey _ | .cipherRound _ | .encrypt => true
  | .nop | .gfAdd _ _ | .gfXtime _ | .gfMul _ _ | .gfInv _ | .gfSbox _ | .gfRcon _ | .expandKey => false

/-- The commands R216 step 7 names: they read RK. -/
def readsRoundKeys : Instr → Bool
  | .addRoundKey _ | .cipherRound _ => true
  | .nop | .gfAdd _ _ | .gfXtime _ | .gfMul _ _ | .gfInv _ | .gfSbox _ | .gfRcon _ => false
  | .subBytes | .shiftRows | .mixColumns | .expandKey | .encrypt => false

/-- The byte commands, which write GF_RESULT (R26). -/
def writesGfResult : Instr → Bool
  | .gfAdd _ _ | .gfXtime _ | .gfMul _ _ | .gfInv _ | .gfSbox _ | .gfRcon _ => true
  | .nop | .subBytes | .shiftRows | .mixColumns | .addRoundKey _ | .expandKey | .cipherRound _ | .encrypt => false

/-- The commands that write RK and set RK_VALID (R25, R33). -/
def writesRoundKeys : Instr → Bool
  | .expandKey | .encrypt => true
  | .nop | .gfAdd _ _ | .gfXtime _ | .gfMul _ _ | .gfInv _ | .gfSbox _ | .gfRcon _ => false
  | .subBytes | .shiftRows | .mixColumns | .addRoundKey _ | .cipherRound _ => false

/-- The checks of R216 steps 4 to 7 hold for `i`. -/
structure MayRun (i : Instr) (s : State) : Prop where
  index : i.wellFormed = true
  key : readsKey i = true → s.status.keyValid = 0xF
  state : readsState i = true → s.status.stateValid = 0xF
  roundKeys : readsRoundKeys i = true → s.status.rkValid = true

/-- The states the block can be in. The premise of a statement that could fail only in states no run reaches. -/
structure Invariant (s : State) : Prop where
  /-- PENDING holds a command exactly when BUSY = 1 (R34). -/
  busy_iff_pending : s.status.busy = s.pending.isSome
  /-- ERR_CODE is 0 whenever ERR is 0 (R30). -/
  no_code_without_error : s.status.err = false → s.status.errCode = 0
  /-- A latched code is one of 1 to 7: 8 to 15 are never raised (R212, R144). -/
  code_is_raised : s.status.err = true → 1 ≤ s.status.errCode.toNat ∧ s.status.errCode.toNat ≤ 7
  /-- When RK_VALID = 1, RK is the expansion of KEY (R33). -/
  round_keys_fresh : s.status.rkValid = true → s.rk = expandKey s.key
  /-- The command in flight passed its issue checks, and they still hold (R216). -/
  in_flight_checked : ∀ i, s.pending = some i → MayRun i s

/-- It is the Core's turn to move: the next event is its completion step, or the Host is quiet. -/
def coreTurn (s : State) : Bool :=
  match s.events with
  | [] => true
  | .complete :: _ => true
  | .access _ :: _ => false
  | .reset :: _ => false

/-- The next event is the legal write of `v` to the register `r`. -/
def writesNext (s : State) (r : Reg) (v : Word) : Prop :=
  ∃ off rest, s.events = .access { off := off, size := 4, kind := .write v } :: rest ∧ off.toNat % 4 = 0 ∧ regAt off = r

/-- The next event is reset. -/
def resetsNext (s : State) : Prop := ∃ rest, s.events = .reset :: rest

/-- `s` with the command `i` in flight (R216 step 8), and nothing else changed. -/
def inFlight (i : Instr) (s : State) : State :=
  { s with pending := some i, status := { s.status with busy := true } }

/-- `s` with no command in flight (the end of R250), and nothing else changed. -/
def completed (s : State) : State := { s with pending := none, status := { s.status with busy := false } }

/-- `s` with an error of the given code latched, and nothing else changed. -/
def failed (code : BitVec 4) (s : State) : State :=
  { s with status := { s.status with err := true, errCode := code } }

/-- `s` after its next event, a legal access, is taken and answered `r`, with `rest` still to come; nothing else changed. -/
def afterAccess (s : State) (rest : List Event) (r : Response) : State :=
  { s with events := rest, responses := r :: s.responses }

/-- No command is in flight and no error is latched. -/
def Idle (s : State) : Prop := s.status.busy = false ∧ s.status.err = false

/-- A word that decodes to no command. -/
def IsIllegalCommand (v : Word) : Prop := ∃ why, decode v = .illegal why

/-- The issue of the word raises ILLEGAL_COMMAND in an idle block, and nothing else happens (R216 step 3). -/
def RaisesIllegalCommand (v : Word) : Prop := IsIllegalCommand v ∧ ∀ s : State, Idle s → issue v s = .next (failed 1 s)

/-- The checks common to all commands apply to the word: its issue is refused with BUSY_VIOLATION while BUSY = 1 (R216 step
1), and dropped while ERR = 1 (step 2); nothing else happens. -/
def CommonChecksApply (v : Word) : Prop :=
  (∀ s : State, s.status.busy = true → issue v s = .next { s with status := s.status.latch .busyViolation }) ∧
  (∀ s : State, s.status.busy = false → s.status.err = true → issue v s = .next s)

/-- A command issued, and completed if it was accepted. -/
def runCommand (i : Instr) (s : State) : Host.Outcome State Fault Refusal :=
  match exec i s with
  | .next u => if u.status.busy then exec i u else .next u
  | .fault r => .fault r
  | .refused r => .refused r

/-- Whether a command's completion may change the value a register reads as (R25, R26, R28, R33), BUSY, which every command
raises and lowers, apart. A command that reads STATE writes it (R23). -/
def mayChange (i : Instr) : Reg → Bool
  | .gfResult => writesGfResult i
  | .state _ => readsState i
  | .rk _ | .status => writesRoundKeys i
  | .cmd | .key _ | .reserved => false

/-- The commands one after the other, each issued when the one before is over. -/
def runCommands : List Instr → State → Host.Outcome State Fault Refusal
  | [], s => .next s
  | i :: is, s =>
    match runCommand i s with
    | .next t => runCommands is t
    | .fault r => .fault r
    | .refused r => .refused r

end Sys2Proof.Machine
end

