-- ==== Sys2Proof/Certificates/Slice0/Obligations.lean ====
section
/-! DEFINITION. The statements about the model, from the numbered rules of the spec. -/

open Sys2Proof Sys2Proof.Machine

/-- The values of R133, row by row, as the spec prints them. -/
def Sys2Proof.Machine.printedSbox : List Byte :=
     [0x63, 0x7c, 0x77, 0x7b, 0xf2, 0x6b, 0x6f, 0xc5, 0x30, 0x01, 0x67, 0x2b, 0xfe, 0xd7, 0xab, 0x76]
  ++ [0xca, 0x82, 0xc9, 0x7d, 0xfa, 0x59, 0x47, 0xf0, 0xad, 0xd4, 0xa2, 0xaf, 0x9c, 0xa4, 0x72, 0xc0]
  ++ [0xb7, 0xfd, 0x93, 0x26, 0x36, 0x3f, 0xf7, 0xcc, 0x34, 0xa5, 0xe5, 0xf1, 0x71, 0xd8, 0x31, 0x15]
  ++ [0x04, 0xc7, 0x23, 0xc3, 0x18, 0x96, 0x05, 0x9a, 0x07, 0x12, 0x80, 0xe2, 0xeb, 0x27, 0xb2, 0x75]
  ++ [0x09, 0x83, 0x2c, 0x1a, 0x1b, 0x6e, 0x5a, 0xa0, 0x52, 0x3b, 0xd6, 0xb3, 0x29, 0xe3, 0x2f, 0x84]
  ++ [0x53, 0xd1, 0x00, 0xed, 0x20, 0xfc, 0xb1, 0x5b, 0x6a, 0xcb, 0xbe, 0x39, 0x4a, 0x4c, 0x58, 0xcf]
  ++ [0xd0, 0xef, 0xaa, 0xfb, 0x43, 0x4d, 0x33, 0x85, 0x45, 0xf9, 0x02, 0x7f, 0x50, 0x3c, 0x9f, 0xa8]
  ++ [0x51, 0xa3, 0x40, 0x8f, 0x92, 0x9d, 0x38, 0xf5, 0xbc, 0xb6, 0xda, 0x21, 0x10, 0xff, 0xf3, 0xd2]
  ++ [0xcd, 0x0c, 0x13, 0xec, 0x5f, 0x97, 0x44, 0x17, 0xc4, 0xa7, 0x7e, 0x3d, 0x64, 0x5d, 0x19, 0x73]
  ++ [0x60, 0x81, 0x4f, 0xdc, 0x22, 0x2a, 0x90, 0x88, 0x46, 0xee, 0xb8, 0x14, 0xde, 0x5e, 0x0b, 0xdb]
  ++ [0xe0, 0x32, 0x3a, 0x0a, 0x49, 0x06, 0x24, 0x5c, 0xc2, 0xd3, 0xac, 0x62, 0x91, 0x95, 0xe4, 0x79]
  ++ [0xe7, 0xc8, 0x37, 0x6d, 0x8d, 0xd5, 0x4e, 0xa9, 0x6c, 0x56, 0xf4, 0xea, 0x65, 0x7a, 0xae, 0x08]
  ++ [0xba, 0x78, 0x25, 0x2e, 0x1c, 0xa6, 0xb4, 0xc6, 0xe8, 0xdd, 0x74, 0x1f, 0x4b, 0xbd, 0x8b, 0x8a]
  ++ [0x70, 0x3e, 0xb5, 0x66, 0x48, 0x03, 0xf6, 0x0e, 0x61, 0x35, 0x57, 0xb9, 0x86, 0xc1, 0x1d, 0x9e]
  ++ [0xe1, 0xf8, 0x98, 0x11, 0x69, 0xd9, 0x8e, 0x94, 0x9b, 0x1e, 0x87, 0xe9, 0xce, 0x55, 0x28, 0xdf]
  ++ [0x8c, 0xa1, 0x89, 0x0d, 0xbf, 0xe6, 0x42, 0x68, 0x41, 0x99, 0x2d, 0x0f, 0xb0, 0x54, 0xbb, 0x16]

/-! ## Encoding -/

/-- R83, R84. No operand bit of any command is lost, at any value. -/
def Obligations.DecodeOfEncodeGivesTheCommand : Prop := ∀ i : Instr, decode (encode i) = .command i

/-- R82: "every legal command has exactly one encoding". -/
def Obligations.EveryCommandHasOneWord : Prop :=
  ∀ (v : Word) (i : Instr), decode v = .command i → v = encode i

/-- R85, R82. The illegal words are those with RSV ≠ 0, those whose OPC is none of the 14, and those with a nonzero field
that R83 marks "0"; the issue of one latches code 1 and does nothing else. -/
def Obligations.IllegalWordsLatchIllegalCommand : Prop :=
  (∀ v : Word, IsIllegalCommand v ↔
    (v.extractLsb' 16 8 ≠ 0 ∨
      v.extractLsb' 24 8 ∉ ([0x00, 0x01, 0x02, 0x03, 0x04, 0x05, 0x06, 0x10, 0x11, 0x12, 0x13, 0x20, 0x30, 0x31] : List Byte) ∨
      (v.extractLsb' 24 8 ∈ ([0x00, 0x06, 0x10, 0x11, 0x12, 0x13, 0x20, 0x30, 0x31] : List Byte) ∧ v.extractLsb' 8 8 ≠ 0) ∨
      (v.extractLsb' 24 8 ∈ ([0x00, 0x02, 0x04, 0x05, 0x10, 0x11, 0x12, 0x20, 0x31] : List Byte) ∧ v.extractLsb' 0 8 ≠ 0))) ∧
  (∀ (v : Word) (s : State), Idle s → IsIllegalCommand v → issue v s = .next (failed 1 s))

/-- Words written out from R83, one of each command, and words of 95_test_vectors.md section 2.12. -/
def Obligations.WordsOfTheSpecDecode : Prop :=
  decode 0x00000000 = .command .nop ∧ decode 0x01005783 = .command (.gfAdd 0x57 0x83) ∧
  decode 0x02005700 = .command (.gfXtime 0x57) ∧ decode 0x03005783 = .command (.gfMul 0x57 0x83) ∧
  decode 0x04005300 = .command (.gfInv 0x53) ∧ decode 0x05005300 = .command (.gfSbox 0x53) ∧
  decode 0x0600000A = .command (.gfRcon 10) ∧ decode 0x10000000 = .command .subBytes ∧
  decode 0x11000000 = .command .shiftRows ∧ decode 0x12000000 = .command .mixColumns ∧
  decode 0x130000FF = .command (.addRoundKey 0xFF) ∧ decode 0x20000000 = .command .expandKey ∧
  decode 0x3000000B = .command (.cipherRound 11) ∧ decode 0x31000000 = .command .encrypt ∧
  IsIllegalCommand 0x07000000 ∧ IsIllegalCommand 0x14000000 ∧ IsIllegalCommand 0x21000000 ∧
  IsIllegalCommand 0x32000000 ∧ IsIllegalCommand 0xFF000000 ∧ IsIllegalCommand 0x03015783 ∧
  IsIllegalCommand 0x04005301 ∧ IsIllegalCommand 0x13010000 ∧ IsIllegalCommand 0x13000100 ∧ IsIllegalCommand 0x31000001

/-! ## Steps -/

/-- R27, R216: a legal CMD write to an idle block, whose word decodes to `i`, is `exec i` in the state in which the write is
taken and answered. (`events` and `responses` are the model's own: log entry 3.) -/
def Obligations.CommandWriteStepRunsDecodedCommand : Prop :=
  ∀ (s : State) (v : Word) (rest : List Event) (i : Instr),
    s.events = .access { off := 0x00, size := 4, kind := .write v } :: rest → Idle s → decode v = .command i →
    step s = exec i (afterAccess s rest .writeDone)

/-- R250: the Core's step is enabled exactly when BUSY = 1; it runs the command in PENDING, after which PENDING is none and
BUSY is 0. It also happens when the Host is quiet (log entry 5). (Events: log entry 3.) -/
def Obligations.CompletionStepRunsPending : Prop :=
  (∀ (s : State) (i : Instr) (rest : List Event), s.events = .complete :: rest → s.status.busy = true →
    s.pending = some i → step s = exec i { s with events := rest }) ∧
  (∀ (s : State) (i : Instr), s.events = [] → s.status.busy = true → s.pending = some i → step s = exec i s) ∧
  (∀ (s : State) (rest : List Event), s.events = .complete :: rest → s.status.busy = false →
    step s = .next { s with events := rest }) ∧
  (∀ s : State, s.events = [] → s.status.busy = false → step s = .next s) ∧
  (∀ s t : State, coreTurn s = true → s.status.busy = true → step s = .next t →
    t.pending = none ∧ t.status.busy = false)

/-- R216, in its order, with the check of the access before it. -/
def Obligations.IssueChecksRunInOrder : Prop :=
  (∀ (a : Access) (s : State), (a.size ≠ 4 ∨ a.off.toNat % 4 ≠ 0) → ∃ t : State, hostAccess a s = .next t ∧
    t.pending = s.pending ∧ t.status = s.status.latch .accessError) ∧
  (∀ (v : Word) (s : State), s.status.busy = true → s.status.err = true → issue v s = .next s) ∧
  (∀ (v : Word) (s : State), s.status.busy = true →
    issue v s = .next { s with status := s.status.latch .busyViolation }) ∧
  (∀ (v : Word) (s : State), s.status.busy = false → s.status.err = true → issue v s = .next s) ∧
  (∀ (v : Word) (s : State), Idle s → IsIllegalCommand v → issue v s = .next (failed 1 s)) ∧
  (∀ (v : Word) (s : State) (i : Instr), Idle s → decode v = .command i →
    (i.wellFormed = false → issue v s = .next (failed 2 s)) ∧
    (i.wellFormed = true → readsKey i = true → s.status.keyValid ≠ 0xF → issue v s = .next (failed 3 s)) ∧
    (i.wellFormed = true → (readsKey i = true → s.status.keyValid = 0xF) → readsState i = true →
      s.status.stateValid ≠ 0xF → issue v s = .next (failed 4 s)) ∧
    (i.wellFormed = true → (readsKey i = true → s.status.keyValid = 0xF) →
      (readsState i = true → s.status.stateValid = 0xF) → readsRoundKeys i = true → s.status.rkValid = false →
      issue v s = .next (failed 5 s)) ∧
    (MayRun i s → issue v s = .next (inFlight i s)))

/-- R86: the index ranges, and the error of an index outside them. -/
def Obligations.IndexOutsideRangeIsIllegalOperand : Prop :=
  (∀ (s : State) (b : Byte), Idle s → (b.toNat = 0 ∨ 10 < b.toNat) → issue (packFields 0x06 0 0 b) s = .next (failed 2 s)) ∧
  (∀ (s : State) (b : Byte), Idle s → 10 < b.toNat → issue (packFields 0x13 0 0 b) s = .next (failed 2 s)) ∧
  (∀ (s : State) (b : Byte), Idle s → 10 < b.toNat → issue (packFields 0x30 0 0 b) s = .next (failed 2 s)) ∧
  (∀ b : Byte, decode (packFields 0x06 0 0 b) = .command (.gfRcon b) ∧
    decode (packFields 0x13 0 0 b) = .command (.addRoundKey b) ∧ decode (packFields 0x30 0 0 b) = .command (.cipherRound b))

/-- R214: while ERR = 1 a legal CMD write is dropped, whatever its word; a command accepted before still completes as it
would have. (Events are the model's own form of the order: log entry 3. That the bus answers the dropped write as done is the
model's choice: log entry 7.) -/
def Obligations.CommandsAreDroppedWhileErrorIsLatched : Prop :=
  (∀ (s : State) (v : Word) (rest : List Event),
    s.events = .access { off := 0x00, size := 4, kind := .write v } :: rest → s.status.busy = false →
    s.status.err = true → step s = .next (afterAccess s rest .writeDone)) ∧
  (∀ (i : Instr) (s t : State) (e : ErrorCode), s.status.busy = true → exec i s = .next t →
    exec i { s with status := s.status.latch e } = .next { t with status := t.status.latch e })

/-! ## Commands: accepted and completed -/

/-- R200. -/
def Obligations.NopIsAcceptedAndChangesNothing : Prop :=
  decode 0x00000000 = .command .nop ∧ (∀ v : Word, opcOf v = 0 → v ≠ 0 → RaisesIllegalCommand v) ∧
  CommonChecksApply 0x00000000 ∧
  (∀ s : State, Idle s → exec .nop s = .next (inFlight .nop s)) ∧
  (∀ s : State, s.status.busy = false → s.status.err = true → exec .nop s = .next s) ∧
  (∀ s : State, s.status.busy = true → s.pending = some .nop → exec .nop s = .next (completed s))

/-- R105. -/
def Obligations.GfAddWritesTheSum : Prop :=
  (∀ (a b : Byte), decode (packFields 0x01 0 a b) = .command (.gfAdd a b)) ∧
  (∀ r a b : Byte, r ≠ 0 → RaisesIllegalCommand (packFields 0x01 r a b)) ∧
  (∀ (a b : Byte), CommonChecksApply (packFields 0x01 0 a b)) ∧
  (∀ (a b : Byte) (s : State), Idle s → exec (.gfAdd a b) s = .next (inFlight (.gfAdd a b) s)) ∧
  (∀ (a b : Byte) (s : State), s.status.busy = true → s.pending = some (.gfAdd a b) →
    exec (.gfAdd a b) s = .next (completed { s with gfResult := a ^^^ b })) ∧
  (∀ a : Byte, gfAdd a a = 0 ∧ gfAdd a 0 = a ∧ gfAdd 0 a = a ∧ gfAdd 0xFF a = ~~~a) ∧ gfAdd 0x57 0x83 = 0xD4

/-- R106. -/
def Obligations.GfXtimeWritesTheDouble : Prop :=
  (∀ (a : Byte), decode (packFields 0x02 0 a 0) = .command (.gfXtime a)) ∧
  (∀ r a b : Byte, (r ≠ 0 ∨ b ≠ 0) → RaisesIllegalCommand (packFields 0x02 r a b)) ∧
  (∀ (a : Byte), CommonChecksApply (packFields 0x02 0 a 0)) ∧
  (∀ (a : Byte) (s : State), Idle s → exec (.gfXtime a) s = .next (inFlight (.gfXtime a) s)) ∧
  (∀ (a : Byte) (s : State), s.status.busy = true → s.pending = some (.gfXtime a) →
    exec (.gfXtime a) s = .next (completed { s with gfResult := xtime a })) ∧
  xtime 0x00 = 0x00 ∧ xtime 0x80 = 0x1B ∧ xtime 0xFF = 0xE5 ∧ xtime 0x7F = 0xFE ∧ xtime 0x8D = 0x01 ∧ xtime 0x57 = 0xAE

/-- R107. -/
def Obligations.GfMulWritesTheProduct : Prop :=
  (∀ (a b : Byte), decode (packFields 0x03 0 a b) = .command (.gfMul a b)) ∧
  (∀ r a b : Byte, r ≠ 0 → RaisesIllegalCommand (packFields 0x03 r a b)) ∧
  (∀ (a b : Byte), CommonChecksApply (packFields 0x03 0 a b)) ∧
  (∀ (a b : Byte) (s : State), Idle s → exec (.gfMul a b) s = .next (inFlight (.gfMul a b) s)) ∧
  (∀ (a b : Byte) (s : State), s.status.busy = true → s.pending = some (.gfMul a b) →
    exec (.gfMul a b) s = .next (completed { s with gfResult := gfMul a b })) ∧
  (∀ a : Byte, gfMul a 0 = 0 ∧ gfMul 0 a = 0 ∧ gfMul a 1 = a ∧ gfMul 1 a = a ∧ gfMul a 2 = xtime a) ∧
  (∀ a b : Byte, gfMul a b = gfMul b a) ∧ gfMul 0xFF 0xFF = 0x13 ∧ gfMul 0x80 0x80 = 0x9A ∧ gfMul 0x57 0x83 = 0xC1

/-- R123. -/
def Obligations.GfInvWritesTheInverse : Prop :=
  (∀ (a : Byte), decode (packFields 0x04 0 a 0) = .command (.gfInv a)) ∧
  (∀ r a b : Byte, (r ≠ 0 ∨ b ≠ 0) → RaisesIllegalCommand (packFields 0x04 r a b)) ∧
  (∀ (a : Byte), CommonChecksApply (packFields 0x04 0 a 0)) ∧
  (∀ (a : Byte) (s : State), Idle s → exec (.gfInv a) s = .next (inFlight (.gfInv a) s)) ∧
  (∀ (a : Byte) (s : State), s.status.busy = true → s.pending = some (.gfInv a) →
    exec (.gfInv a) s = .next (completed { s with gfResult := gfInv a })) ∧
  gfInv 0x00 = 0x00 ∧ gfInv 0x01 = 0x01 ∧ gfInv 0x02 = 0x8D ∧ gfInv 0x8D = 0x02 ∧ gfInv 0xFF = 0x1C ∧ gfInv 0x80 = 0x83 ∧
  gfInv 0x53 = 0xCA ∧ gfMul 0x53 0xCA = 0x01

/-- R134. -/
def Obligations.GfSboxWritesTheSubstitute : Prop :=
  (∀ (a : Byte), decode (packFields 0x05 0 a 0) = .command (.gfSbox a)) ∧
  (∀ r a b : Byte, (r ≠ 0 ∨ b ≠ 0) → RaisesIllegalCommand (packFields 0x05 r a b)) ∧
  (∀ (a : Byte), CommonChecksApply (packFields 0x05 0 a 0)) ∧
  (∀ (a : Byte) (s : State), Idle s → exec (.gfSbox a) s = .next (inFlight (.gfSbox a) s)) ∧
  (∀ (a : Byte) (s : State), s.status.busy = true → s.pending = some (.gfSbox a) →
    exec (.gfSbox a) s = .next (completed { s with gfResult := sbox a })) ∧
  sbox 0x00 = 0x63 ∧ sbox 0x52 = 0x00 ∧ sbox 0xFF = 0x16 ∧ sbox 0x63 = 0xFB ∧ sbox 0x53 = 0xED

/-- R165. -/
def Obligations.GfRconWritesTheRoundConstant : Prop :=
  (∀ i : Byte, decode (packFields 0x06 0 0 i) = .command (.gfRcon i)) ∧
  (∀ r a i : Byte, (r ≠ 0 ∨ a ≠ 0) → RaisesIllegalCommand (packFields 0x06 r a i)) ∧
  (∀ i : Byte, CommonChecksApply (packFields 0x06 0 0 i)) ∧
  (∀ (i : Byte) (s : State), Idle s → (i.toNat = 0 ∨ 10 < i.toNat) → exec (.gfRcon i) s = .next (failed 2 s)) ∧
  (∀ (i : Byte) (s : State), Idle s → 1 ≤ i.toNat → i.toNat ≤ 10 →
    exec (.gfRcon i) s = .next (inFlight (.gfRcon i) s)) ∧
  (∀ (i : Byte) (s : State), s.status.busy = true → s.pending = some (.gfRcon i) → 1 ≤ i.toNat → i.toNat ≤ 10 →
    exec (.gfRcon i) s = .next (completed { s with gfResult := rcon i.toNat })) ∧
  rcon 1 = 0x01 ∧ rcon 9 = 0x1B ∧ rcon 10 = 0x36

/-- R145. -/
def Obligations.SubBytesSubstitutesEveryByte : Prop :=
  decode 0x10000000 = .command .subBytes ∧
  (∀ v : Word, opcOf v = 0x10 → v ≠ 0x10000000 → RaisesIllegalCommand v) ∧ CommonChecksApply 0x10000000 ∧
  (∀ s : State, Idle s → s.status.stateValid ≠ 0xF → exec .subBytes s = .next (failed 4 s)) ∧
  (∀ s : State, Idle s → s.status.stateValid = 0xF → exec .subBytes s = .next (inFlight .subBytes s)) ∧
  (∀ s : State, s.status.busy = true → s.pending = some .subBytes →
    exec .subBytes s = .next (completed { s with state := subBytes s.state })) ∧
  (∀ (s : Block) (r c : Fin 4), (subBytes s).cell r c = sbox (s.cell r c)) ∧
  (∀ (s : Block) (r c : Fin 4), s.cell r c = 0 → (subBytes s).cell r c = 0x63) ∧
  subBytes ⟨0x193de3be, 0xa0f4e22b, 0x9ac68d2a, 0xe9f84808⟩ =
    ⟨0xd42711ae, 0xe0bf98f1, 0xb8b45de5, 0x1e415230⟩

/-- R146. -/
def Obligations.ShiftRowsRotatesEachRow : Prop :=
  decode 0x11000000 = .command .shiftRows ∧
  (∀ v : Word, opcOf v = 0x11 → v ≠ 0x11000000 → RaisesIllegalCommand v) ∧ CommonChecksApply 0x11000000 ∧
  (∀ s : State, Idle s → s.status.stateValid ≠ 0xF → exec .shiftRows s = .next (failed 4 s)) ∧
  (∀ s : State, Idle s → s.status.stateValid = 0xF → exec .shiftRows s = .next (inFlight .shiftRows s)) ∧
  (∀ s : State, s.status.busy = true → s.pending = some .shiftRows →
    exec .shiftRows s = .next (completed { s with state := shiftRows s.state })) ∧
  (∀ (s : Block) (c : Fin 4), (shiftRows s).cell 0 c = s.cell 0 c) ∧
  (∀ w : Word, shiftRows ⟨w, w, w, w⟩ = ⟨w, w, w, w⟩) ∧
  (∀ s : Block, shiftRows (shiftRows (shiftRows (shiftRows s))) = s) ∧
  shiftRows ⟨0x00010203, 0x04050607, 0x08090a0b, 0x0c0d0e0f⟩ =
    ⟨0x00050a0f, 0x04090e03, 0x080d0207, 0x0c01060b⟩

/-- R147. -/
def Obligations.MixColumnsMultipliesEachColumn : Prop :=
  decode 0x12000000 = .command .mixColumns ∧
  (∀ v : Word, opcOf v = 0x12 → v ≠ 0x12000000 → RaisesIllegalCommand v) ∧ CommonChecksApply 0x12000000 ∧
  (∀ s : State, Idle s → s.status.stateValid ≠ 0xF → exec .mixColumns s = .next (failed 4 s)) ∧
  (∀ s : State, Idle s → s.status.stateValid = 0xF → exec .mixColumns s = .next (inFlight .mixColumns s)) ∧
  (∀ s : State, s.status.busy = true → s.pending = some .mixColumns →
    exec .mixColumns s = .next (completed { s with state := mixColumns s.state })) ∧
  (∀ (s : Block) (c : Fin 4) (b : Byte), s.word c = wordOf b b b b → (mixColumns s).word c = s.word c) ∧
  (∀ (s : Block) (c : Fin 4), s.word c = 0x01000000 → (mixColumns s).word c = 0x02010103) ∧
  (∀ (s u : Block) (c : Fin 4), s.word c = u.word c → (mixColumns s).word c = (mixColumns u).word c) ∧
  (∀ (s : Block) (c : Fin 4), s.word c = 0xdb135345 → (mixColumns s).word c = 0x8e4da1bc) ∧
  mixColumns ⟨0xd4bf5d30, 0xe0b452ae, 0xb84111f1, 0x1e2798e5⟩ =
    ⟨0x046681e5, 0xe0cb199a, 0x48f8d37a, 0x2806264c⟩

/-- R148. -/
def Obligations.AddRoundKeyAddsTheRoundKey : Prop :=
  (∀ k : Byte, decode (packFields 0x13 0 0 k) = .command (.addRoundKey k)) ∧
  (∀ r a k : Byte, (r ≠ 0 ∨ a ≠ 0) → RaisesIllegalCommand (packFields 0x13 r a k)) ∧
  (∀ k : Byte, CommonChecksApply (packFields 0x13 0 0 k)) ∧
  (∀ (k : Byte) (s : State), Idle s → 10 < k.toNat → exec (.addRoundKey k) s = .next (failed 2 s)) ∧
  (∀ (k : Byte) (s : State), Idle s → k.toNat ≤ 10 → s.status.stateValid ≠ 0xF →
    exec (.addRoundKey k) s = .next (failed 4 s)) ∧
  (∀ (k : Byte) (s : State), Idle s → k.toNat ≤ 10 → s.status.stateValid = 0xF → s.status.rkValid = false →
    exec (.addRoundKey k) s = .next (failed 5 s)) ∧
  (∀ (k : Byte) (s : State), Idle s → k.toNat ≤ 10 → s.status.stateValid = 0xF → s.status.rkValid = true →
    exec (.addRoundKey k) s = .next (inFlight (.addRoundKey k) s)) ∧
  (∀ (k : Byte) (s : State) (h : k.toNat < 11), s.status.busy = true → s.pending = some (.addRoundKey k) →
    exec (.addRoundKey k) s = .next (completed
      { s with state := keyAdd s.state ⟨s.rk[4 * k.toNat], s.rk[4 * k.toNat + 1], s.rk[4 * k.toNat + 2], s.rk[4 * k.toNat + 3]⟩ })) ∧
  (∀ k : Block, rkey (expandKey k) 0 = k) ∧ (∀ s k : Block, keyAdd (keyAdd s k) k = s) ∧
  keyAdd ⟨0x3243f6a8, 0x885a308d, 0x313198a2, 0xe0370734⟩
      ⟨0x2b7e1516, 0x28aed2a6, 0xabf71588, 0x09cf4f3c⟩ =
    ⟨0x193de3be, 0xa0f4e22b, 0x9ac68d2a, 0xe9f84808⟩

/-- R166. -/
def Obligations.ExpandKeyWritesAllRoundKeys : Prop :=
  decode 0x20000000 = .command .expandKey ∧
  (∀ v : Word, opcOf v = 0x20 → v ≠ 0x20000000 → RaisesIllegalCommand v) ∧ CommonChecksApply 0x20000000 ∧
  (∀ s : State, Idle s → s.status.keyValid ≠ 0xF → exec .expandKey s = .next (failed 3 s)) ∧
  (∀ s : State, Idle s → s.status.keyValid = 0xF → exec .expandKey s = .next (inFlight .expandKey s)) ∧
  (∀ s : State, s.status.busy = true → s.pending = some .expandKey →
    exec .expandKey s =
      .next (completed { s with rk := expandKey s.key, status := { s.status with rkValid := true } })) ∧
  (∀ s : State, s.status.busy = true → s.pending = some .expandKey → s.status.rkValid = true → s.rk = expandKey s.key →
    exec .expandKey s = .next (completed s)) ∧
  (∀ (s : State) (j : Fin 4) (v : Word), s.status.busy = false → ∃ t : State, writeReg (.key j) v s = .next t ∧
    t.status.rkValid = false ∧ t.rk = s.rk) ∧
  rkey (expandKey ⟨0, 0, 0, 0⟩) 1 = ⟨0x62636363, 0x62636363, 0x62636363, 0x62636363⟩ ∧
  rkey (expandKey ⟨0x2b7e1516, 0x28aed2a6, 0xabf71588, 0x09cf4f3c⟩) 1 =
    ⟨0xa0fafe17, 0x88542cb1, 0x23a33939, 0x2a6c7605⟩ ∧
  rkey (expandKey ⟨0x2b7e1516, 0x28aed2a6, 0xabf71588, 0x09cf4f3c⟩) 10 =
    ⟨0xd014f9a8, 0xc9ee2589, 0xe13f0cc8, 0xb6630ca6⟩

/-- R182, with the composition of the rounds of R180. -/
def Obligations.CipherRoundPerformsOneRound : Prop :=
  (∀ r : Byte, decode (packFields 0x30 0 0 r) = .command (.cipherRound r)) ∧
  (∀ r a k : Byte, (r ≠ 0 ∨ a ≠ 0) → RaisesIllegalCommand (packFields 0x30 r a k)) ∧
  (∀ r : Byte, CommonChecksApply (packFields 0x30 0 0 r)) ∧
  (∀ (r : Byte) (s : State), Idle s → 10 < r.toNat → exec (.cipherRound r) s = .next (failed 2 s)) ∧
  (∀ (r : Byte) (s : State), Idle s → r.toNat ≤ 10 → s.status.stateValid ≠ 0xF →
    exec (.cipherRound r) s = .next (failed 4 s)) ∧
  (∀ (r : Byte) (s : State), Idle s → r.toNat ≤ 10 → s.status.stateValid = 0xF → s.status.rkValid = false →
    exec (.cipherRound r) s = .next (failed 5 s)) ∧
  (∀ (r : Byte) (s : State), Idle s → r.toNat ≤ 10 → s.status.stateValid = 0xF → s.status.rkValid = true →
    exec (.cipherRound r) s = .next (inFlight (.cipherRound r) s)) ∧
  (∀ (r : Byte) (s : State) (h : r.toNat < 11), s.status.busy = true → s.pending = some (.cipherRound r) →
    exec (.cipherRound r) s = .next (completed { s with state := cipherRound s.state s.rk ⟨r.toNat, h⟩ })) ∧
  (∀ (s : Block) (rk : Vector Word 44), cipherRound s rk 0 = keyAdd s (rkey rk 0)) ∧
  (∀ (s : Block) (rk : Vector Word 44) (r : Fin 11), 1 ≤ r.val → r.val ≤ 9 →
    cipherRound s rk r = keyAdd (mixColumns (shiftRows (subBytes s))) (rkey rk r)) ∧
  (∀ (s : Block) (rk : Vector Word 44), cipherRound s rk 10 = keyAdd (shiftRows (subBytes s)) (rkey rk 10)) ∧
  cipherRound ⟨0x193de3be, 0xa0f4e22b, 0x9ac68d2a, 0xe9f84808⟩
      (expandKey ⟨0x2b7e1516, 0x28aed2a6, 0xabf71588, 0x09cf4f3c⟩) 1 =
    ⟨0xa49c7ff2, 0x689f352b, 0x6b5bea43, 0x026a5049⟩

/-- R183. -/
def Obligations.EncryptWritesCiphertextAndRoundKeys : Prop :=
  decode 0x31000000 = .command .encrypt ∧
  (∀ v : Word, opcOf v = 0x31 → v ≠ 0x31000000 → RaisesIllegalCommand v) ∧ CommonChecksApply 0x31000000 ∧
  (∀ s : State, Idle s → s.status.keyValid ≠ 0xF → exec .encrypt s = .next (failed 3 s)) ∧
  (∀ s : State, Idle s → s.status.keyValid = 0xF → s.status.stateValid ≠ 0xF →
    exec .encrypt s = .next (failed 4 s)) ∧
  (∀ s : State, Idle s → s.status.keyValid = 0xF → s.status.stateValid = 0xF →
    exec .encrypt s = .next (inFlight .encrypt s)) ∧
  (∀ s : State, s.status.busy = true → s.pending = some .encrypt →
    exec .encrypt s = .next (completed
      { s with rk := expandKey s.key, state := cipher s.key s.state, status := { s.status with rkValid := true } })) ∧
  cipher ⟨0, 0, 0, 0⟩ ⟨0, 0, 0, 0⟩ = ⟨0x66e94bd4, 0xef8a2c3b, 0x884cfa59, 0xca342b2e⟩ ∧
  cipher ⟨0x2b7e1516, 0x28aed2a6, 0xabf71588, 0x09cf4f3c⟩ ⟨0x3243f6a8, 0x885a308d, 0x313198a2, 0xe0370734⟩ =
    ⟨0x3925841d, 0x02dc09fb, 0xdc118597, 0x196a0b32⟩

/-- R210, R216: every command completes. From an idle block in which its checks hold it is accepted, and its completion
then gives an idle block. -/
def Obligations.EveryCommandThatMayRunCompletes : Prop :=
  ∀ (i : Instr) (s : State), Idle s → MayRun i s →
    ∃ u t : State, exec i s = .next u ∧ u.pending = some i ∧ u.status.busy = true ∧ exec i u = .next t ∧
      t.pending = none ∧ t.status.busy = false ∧ t.status.err = false

/-- The frame of every command, through the registers as they are read: after an accepted command completes, each register
of the window that it may not change reads as before, and so do the model's own fields. -/
def Obligations.CommandsLeaveOtherRegistersUnchanged : Prop :=
  ∀ (i : Instr) (s u t : State), s.status.busy = false → exec i s = .next u → u.status.busy = true →
    exec i u = .next t →
    (∀ r : Reg, mayChange i r = false → t.regValue r = s.regValue r) ∧
    t.status.err = s.status.err ∧ t.status.errCode = s.status.errCode ∧ t.status.keyValid = s.status.keyValid ∧
    t.status.stateValid = s.status.stateValid ∧ (writesRoundKeys i = false → t.status.rkValid = s.status.rkValid) ∧
    t.events = s.events ∧ t.responses = s.responses ∧ t.draws = s.draws

/-! ## The register window -/

/-- R52: an access that is not 4 bytes wide at a multiple of 4, while BUSY = 1 too. (Events are the model's own form of the
order: log entry 3. The form of the bus's answer is the model's choice: log entry 7.) -/
def Obligations.IllegalAccessLatchesAccessError : Prop :=
  ∀ (s : State) (a : Access) (rest : List Event), s.events = .access a :: rest →
    (a.size ≠ 4 ∨ a.off.toNat % 4 ≠ 0) →
    (a.kind = .read → step s = .next { afterAccess s rest (.readError a.size Config.busErrResponse) with
      status := s.status.latch .accessError }) ∧
    (∀ v : Word, a.kind = .write v → step s = .next { afterAccess s rest (.writeError Config.busErrResponse) with
      status := s.status.latch .accessError })

/-- R55, R36: the value of every legal read, and that it changes no register. A free value is the next draw.
(Events are the model's own form of the order: log entry 3.) -/
def Obligations.LegalReadsReturnTheRegister : Prop :=
  ∀ (s : State) (off : Byte) (rest : List Event),
    s.events = .access { off := off, size := 4, kind := .read } :: rest →
    (off = 0x00 → step s = .next (afterAccess s rest (.readData 0))) ∧
    (off = 0x04 → step s = .next (afterAccess s rest (.readData s.status.toWord))) ∧
    (off = 0x08 → s.status.busy = false → step s = .next (afterAccess s rest (.readData (zext32 s.gfResult)))) ∧
    (∀ j : Fin 4, off.toNat = 0x10 + 4 * j.val → s.status.busy = false →
      step s = .next (afterAccess s rest (.readData (s.key.word j)))) ∧
    (∀ c : Fin 4, off.toNat = 0x20 + 4 * c.val → s.status.busy = false →
      step s = .next (afterAccess s rest (.readData (s.state.word c)))) ∧
    (∀ w : Fin 44, off.toNat = 0x40 + 4 * w.val → s.status.busy = false →
      step s = .next (afterAccess s rest (.readData (s.rk[w.val])))) ∧
    ((off = 0x08 ∨ (off.toNat % 4 = 0 ∧ (0x10 ≤ off.toNat ∧ off.toNat < 0x30 ∨ 0x40 ≤ off.toNat ∧ off.toNat < 0xF0))) →
      s.status.busy = true →
      step s = .next { afterAccess s rest (.readData (Config.anyU32 s.draws)) with draws := s.draws + 1 }) ∧
    ((off = 0x0C ∨ (off.toNat % 4 = 0 ∧ (0x30 ≤ off.toNat ∧ off.toNat < 0x40 ∨ 0xF0 ≤ off.toNat))) →
      step s = .next (afterAccess s rest (.readData 0)))

/-- R56: the effect of every legal write; one to CMD is the issue of its value. (Events are the model's own form of the order:
log entry 3. That the bus answers a write refused with BUSY_VIOLATION as done is the model's choice: log entry 7.) -/
def Obligations.LegalWritesChangeTheRegister : Prop :=
  ∀ (s : State) (off : Byte) (v : Word) (rest : List Event),
    s.events = .access { off := off, size := 4, kind := .write v } :: rest →
    (off = 0x00 → step s = issue v (afterAccess s rest .writeDone)) ∧
    (off = 0x04 → v.getLsbD 1 = true → step s = .next { afterAccess s rest .writeDone with
      status := { s.status with err := false, errCode := 0 } }) ∧
    (off = 0x04 → v.getLsbD 1 = false → step s = .next (afterAccess s rest .writeDone)) ∧
    (∀ j : Fin 4, off.toNat = 0x10 + 4 * j.val → s.status.busy = false →
      step s = .next { afterAccess s rest .writeDone with
        key := s.key.setWord j v
        status := { s.status with keyValid := s.status.keyValid ||| 1#4 <<< j.val, rkValid := false } }) ∧
    (∀ c : Fin 4, off.toNat = 0x20 + 4 * c.val → s.status.busy = false →
      step s = .next { afterAccess s rest .writeDone with
        state := s.state.setWord c v
        status := { s.status with stateValid := s.status.stateValid ||| 1#4 <<< c.val } }) ∧
    (off.toNat % 4 = 0 → 0x10 ≤ off.toNat → off.toNat < 0x30 → s.status.busy = true →
      step s = .next { afterAccess s rest .writeDone with status := s.status.latch .busyViolation }) ∧
    ((off = 0x08 ∨ off = 0x0C ∨ (off.toNat % 4 = 0 ∧ 0x30 ≤ off.toNat)) →
      step s = .next (afterAccess s rest .writeDone))

/-- R51, R57: the register at each offset, and no aliases (R50). -/
def Obligations.RegisterMapIsTheSpecs : Prop :=
  regAt 0x00 = .cmd ∧ regAt 0x04 = .status ∧ regAt 0x08 = .gfResult ∧ regAt 0x0C = .reserved ∧
  (∀ j : Fin 4, regAt (BitVec.ofNat 8 (0x10 + 4 * j.val)) = .key j) ∧
  (∀ c : Fin 4, regAt (BitVec.ofNat 8 (0x20 + 4 * c.val)) = .state c ∧
    regAt (BitVec.ofNat 8 (0x30 + 4 * c.val)) = .reserved ∧ regAt (BitVec.ofNat 8 (0xF0 + 4 * c.val)) = .reserved) ∧
  (∀ w : Fin 44, regAt (BitVec.ofNat 8 (0x40 + 4 * w.val)) = .rk w) ∧
  (∀ o p : Byte, o.toNat % 4 = 0 → p.toNat % 4 = 0 → regAt o = regAt p → regAt o ≠ .reserved → o = p)

/-- R50, R15: of the platform's accesses the block sees those inside its window, at the offset from BASE. -/
def Obligations.WindowSeesOffsetsFromBase : Prop :=
  Config.base % 256 = 0 ∧
  (∀ (off : Byte) (n : Nat) (k : AccessKind),
    windowAccess (Config.base + off.toNat) n k = some { off := off, size := n, kind := k }) ∧
  (∀ (addr n : Nat) (k : AccessKind), addr < Config.base ∨ Config.base + 256 ≤ addr → windowAccess addr n k = none)

/-- R28: each field of STATUS at its bits, the reserved bits 0. -/
def Obligations.StatusReadsAsItsFields : Prop :=
  ∀ st : Status, st.toWord.getLsbD 0 = st.busy ∧ st.toWord.getLsbD 1 = st.err ∧ st.toWord.extractLsb' 2 2 = 0 ∧
    st.toWord.extractLsb' 4 4 = st.errCode ∧ st.toWord.extractLsb' 8 4 = st.keyValid ∧
    st.toWord.extractLsb' 12 4 = st.stateValid ∧ st.toWord.getLsbD 16 = st.rkValid ∧ st.toWord.extractLsb' 17 15 = 0

/-! ## Errors and reset -/

/-- R211, R212: the first error since the last clear is kept, with the code of the table. -/
def Obligations.FirstErrorIsKept : Prop :=
  (∀ (s : State) (e : ErrorCode), s.status.err = true → s.latchError e = s) ∧
  (∀ (s : State) (e : ErrorCode), s.status.err = false →
    s.latchError e = { s with status := { s.status with err := true, errCode := e.code } }) ∧
  ErrorCode.illegalCommand.code = 1 ∧ ErrorCode.illegalOperand.code = 2 ∧ ErrorCode.keyNotLoaded.code = 3 ∧
  ErrorCode.stateNotLoaded.code = 4 ∧ ErrorCode.roundKeysNotValid.code = 5 ∧ ErrorCode.busyViolation.code = 6 ∧
  ErrorCode.accessError.code = 7 ∧ ErrorCode.shapeMismatch.code = 8

/-- R37: the state after reset. -/
def Obligations.ResetLeavesEveryRegisterZero : Prop :=
  State.reset.key = ⟨0, 0, 0, 0⟩ ∧ State.reset.state = ⟨0, 0, 0, 0⟩ ∧ (∀ w : Fin 44, State.reset.rk[w.val] = 0) ∧
  State.reset.gfResult = 0 ∧ State.reset.status.toWord = 0 ∧ State.reset.status.busy = false ∧
  State.reset.status.err = false ∧ State.reset.status.errCode = 0 ∧ State.reset.status.keyValid = 0 ∧
  State.reset.status.stateValid = 0 ∧ State.reset.status.rkValid = false ∧ State.reset.pending = none

/-- R240: the reset event gives every register its reset value, whatever was in flight.
(Events are the model's own form of the order: log entry 3.) -/
def Obligations.ResetEventAbandonsTheCommandInFlight : Prop :=
  ∀ (s : State) (rest : List Event), s.events = .reset :: rest →
    step s = .next { State.reset with events := rest, responses := s.responses, draws := s.draws }

/-! ## What may change each register -/

/-- R22: only host writes (and reset) change KEY; an accepted one sets KEY_VALID[j] and clears RK_VALID.
(Events are the model's own form of the order: log entry 3.) -/
def Obligations.OnlyHostWritesChangeKey : Prop :=
  ∀ s t : State, step s = .next t → t.key ≠ s.key →
    resetsNext s ∨
    ∃ j v, writesNext s (.key j) v ∧ s.status.busy = false ∧ t.key = s.key.setWord j v ∧
      t.status.keyValid.getLsbD j.val = true ∧ t.status.rkValid = false

/-- R23: STATE changes by an accepted host write, which sets STATE_VALID[c], by the completion of a command that reads it,
and by reset. (Events are the model's own form of the order: log entry 3.) -/
def Obligations.OnlyWritesAndStateCommandsChangeState : Prop :=
  ∀ s t : State, step s = .next t → t.state ≠ s.state →
    resetsNext s ∨
    (∃ c v, writesNext s (.state c) v ∧ s.status.busy = false ∧ t.state = s.state.setWord c v ∧
      t.status.stateValid.getLsbD c.val = true) ∨
    (coreTurn s = true ∧ s.status.busy = true ∧ ∃ i, s.pending = some i ∧ readsState i = true)

/-- R25: only EXPAND_KEY and ENCRYPT (and reset) change RK, and they write all of it.
(Events are the model's own form of the order: log entry 3.) -/
def Obligations.OnlyKeyExpansionChangesRoundKeys : Prop :=
  ∀ s t : State, step s = .next t → t.rk ≠ s.rk →
    resetsNext s ∨
    (coreTurn s = true ∧ s.status.busy = true ∧ (s.pending = some .expandKey ∨ s.pending = some .encrypt) ∧
      t.rk = expandKey s.key ∧ t.status.rkValid = true)

/-- R26: only the byte commands (and reset) change GF_RESULT, and its bits [31:8] always read 0.
(Events are the model's own form of the order: log entry 3.) -/
def Obligations.OnlyByteCommandsChangeGfResult : Prop :=
  (∀ s t : State, step s = .next t → t.gfResult ≠ s.gfResult →
    resetsNext s ∨
    (coreTurn s = true ∧ s.status.busy = true ∧ ∃ i, s.pending = some i ∧ writesGfResult i = true)) ∧
  (∀ s : State, (s.regValue .gfResult).extractLsb' 8 24 = 0 ∧ (s.regValue .gfResult).extractLsb' 0 8 = s.gfResult)

/-- R31, R32, R240: no event but reset clears a bit of KEY_VALID or STATE_VALID.
(Events are the model's own form of the order: log entry 3.) -/
def Obligations.OnlyResetClearsValidBits : Prop :=
  ∀ s t : State, step s = .next t → ¬ resetsNext s → ∀ b : Nat,
    (s.status.keyValid.getLsbD b = true → t.status.keyValid.getLsbD b = true) ∧
    (s.status.stateValid.getLsbD b = true → t.status.stateValid.getLsbD b = true)

/-- R33: what sets RK_VALID and what clears it. (Events are the model's own form of the order: log entry 3.) -/
def Obligations.RoundKeysValidIsSetAndCleared : Prop :=
  (∀ s t : State, step s = .next t → s.status.rkValid = false → t.status.rkValid = true →
    coreTurn s = true ∧ s.status.busy = true ∧ (s.pending = some .expandKey ∨ s.pending = some .encrypt)) ∧
  (∀ s t : State, step s = .next t → s.status.rkValid = true → t.status.rkValid = false →
    resetsNext s ∨ ∃ j v, writesNext s (.key j) v ∧ s.status.busy = false)

/-- R215, R30: the error state is left only by a STATUS write with bit 1 set, or reset; until then the code stays.
(Events are the model's own form of the order: log entry 3.) -/
def Obligations.ErrorIsLeftOnlyByClearing : Prop :=
  ∀ s t : State, step s = .next t → s.status.err = true →
    (t.status.err = false → resetsNext s ∨ ∃ v, writesNext s .status v ∧ v.getLsbD 1 = true) ∧
    (t.status.err = true → t.status.errCode = s.status.errCode)

/-- R29, R34: only the acceptance of a command raises BUSY, only completion and reset lower it.
(Events are the model's own form of the order: log entry 3.) -/
def Obligations.BusyIsRaisedByIssueLoweredByCompletion : Prop :=
  (∀ s t : State, step s = .next t → s.status.busy = false → t.status.busy = true →
    ∃ v i, writesNext s .cmd v ∧ decode v = .command i ∧ s.status.err = false ∧ MayRun i s ∧ t.pending = some i) ∧
  (∀ s t : State, step s = .next t → s.status.busy = true → t.status.busy = false → coreTurn s = true ∨ resetsNext s)

/-! ## Whole runs -/

/-- The invariant holds after reset. -/
def Obligations.InvariantHoldsAtReset : Prop := Invariant State.reset

/-- R33, R34, R30, R212, R144: every step keeps the invariant, from any state that has it.
(Events are the model's own form of the order: log entry 3.) -/
def Obligations.EveryStepKeepsTheInvariant : Prop := ∀ s t : State, Invariant s → step s = .next t → Invariant t

/-- R210, R250: no error stops the block and completion never fails: from a state with the invariant a step always answers
a next state. (Events are the model's own form of the order: log entry 3.) -/
def Obligations.StepNeverStopsUnderTheInvariant : Prop := ∀ s : State, Invariant s → ∃ t, step s = .next t

/-- R250, R246: whatever accesses the Host makes while a command is in flight, the registers stay as they were at issue, so
the command completes with the same result. (Events are the model's own form of the order: log entry 3.) -/
def Obligations.HostCannotDisturbTheCommandInFlight : Prop :=
  ∀ (s : State) (accesses : List Access), s.status.busy = true →
    ∃ u : State, Host.Core.run Sys2Proof.core accesses.length { s with events := accesses.map Event.access } = .next u ∧
      u.key = s.key ∧ u.state = s.state ∧ u.rk = s.rk ∧ u.gfResult = s.gfResult ∧ u.pending = s.pending ∧
      u.status.busy = true ∧
      ∀ (i : Instr) (t : State), exec i s = .next t →
        ∃ t', exec i u = .next t' ∧ t'.key = t.key ∧ t'.state = t.state ∧ t'.rk = t.rk ∧ t'.gfResult = t.gfResult ∧
          t'.status.rkValid = t.status.rkValid

/-- R184, which the spec marks as its own inference: the two paths to the ciphertext, by rounds and by transforms, end
where ENCRYPT ends. A command is issued and completed here without the accesses of its poll. -/
def Obligations.RoundByRoundEqualsEncrypt : Prop :=
  ∀ s : State, Idle s → s.status.keyValid = 0xF → s.status.stateValid = 0xF →
    ∃ t : State, runCommand .encrypt s = .next t ∧
      runCommands (.expandKey :: (List.range 11).map fun r => .cipherRound (BitVec.ofNat 8 r)) s = .next t ∧
      runCommands (.expandKey :: .addRoundKey 0 ::
        ((List.range 9).flatMap fun r => [.subBytes, .shiftRows, .mixColumns, .addRoundKey (BitVec.ofNat 8 (r + 1))])
        ++ [.subBytes, .shiftRows, .addRoundKey 10]) s = .next t

/-- R185, which the spec marks as its own inference: the result of ENCRYPT depends on KEY and STATE at issue and on
nothing else. -/
def Obligations.EncryptDependsOnlyOnKeyAndState : Prop :=
  ∀ s s' t t' : State, Idle s → Idle s' → s.status.keyValid = 0xF → s'.status.keyValid = 0xF →
    s.status.stateValid = 0xF → s'.status.stateValid = 0xF → s.key = s'.key → s.state = s'.state →
    runCommand .encrypt s = .next t → runCommand .encrypt s' = .next t' →
    t.state = t'.state ∧ t.state = cipher s.key s.state ∧ t.rk = t'.rk

/-- R243, which the spec marks as its own inference: the host's recipe for one block, from any idle block, with any key,
any plaintext and any number of polls before the completion. (Events and answers are the model's own: log entry 3. `poll` is
written as the accesses it makes: log entry 17.) -/
def Obligations.EncryptionRecipeReadsTheCiphertext : Prop :=
  ∀ (s : State) (k p : Block) (n : Nat), Idle s →
    ∃ t : State, Host.Core.run Sys2Proof.core (15 + n)
        { s with events := loadKey k ++ loadBlock p ++ runPolled .encrypt n ++ readBlock } = .next t ∧
      t.responses.take 5 = [.readData (cipher k p).w3, .readData (cipher k p).w2, .readData (cipher k p).w1,
        .readData (cipher k p).w0, .readData t.status.toWord] ∧
      t.status.busy = false ∧ t.status.err = false ∧ t.status.rkValid = true ∧ t.key = k ∧ t.rk = expandKey k

/-! ## The arithmetic and the cipher -/

/-- The polynomial of a byte (R19). -/
noncomputable def Sys2Proof.Machine.bytePoly (a : Byte) : Polynomial (ZMod 2) :=
  ∑ i ∈ Finset.range 8, if a.getLsbD i then Polynomial.X ^ i else 0

/-- R103, which the spec marks as its own inference: `gf_mul(a, b)` is the product of the polynomials of `a` and `b` reduced
modulo x^8 + x^4 + x^3 + x + 1. -/
def Obligations.ProductIsReducedPolynomialProduct : Prop :=
  ∀ a b : Byte, (Polynomial.X ^ 8 + Polynomial.X ^ 4 + Polynomial.X ^ 3 + Polynomial.X + 1 : Polynomial (ZMod 2)) ∣
    bytePoly a * bytePoly b - bytePoly (gfMul a b)

/-- All the laws of R104, which the spec marks as its own inference from R100 to R103. -/
def Obligations.FieldLawsHold : Prop :=
  (∀ a b : Byte, gfMul a b = gfMul b a) ∧ (∀ a : Byte, gfMul a 0x01 = a) ∧ (∀ a : Byte, gfAdd a a = 0x00) ∧
  (∀ a : Byte, gfMul a 0x00 = 0x00) ∧ (∀ a b c : Byte, gfMul (gfMul a b) c = gfMul a (gfMul b c)) ∧
  (∀ a b c : Byte, gfMul a (gfAdd b c) = gfAdd (gfMul a b) (gfMul a c)) ∧ (∀ a : Byte, xtime a = gfMul a 0x02) ∧
  (∀ a b : Byte, gfMul a b = 0x00 → a = 0x00 ∨ b = 0x00) ∧ (∀ a : Byte, Nat.iterate xtime 8 a = gfMul a 0x1B) ∧
  (∀ a : Byte, a ≠ 0 → Nat.iterate xtime 51 a = a ∧ (∀ n : Nat, 0 < n → n < 51 → Nat.iterate xtime n a ≠ a) ∧
    (∀ n : Nat, Nat.iterate xtime n a ≠ 0))

/-- The laws of R122, which the spec marks as its own inference from R120 and R121: the inverse, the naive power, the
involution, the bijection and the fixed points. -/
def Obligations.InverseLawsHold : Prop :=
  (∀ a : Byte, a ≠ 0 → gfMul a (gfInv a) = 0x01) ∧ gfInv 0x00 = 0x00 ∧
  (∀ a : Byte, gfInv a = Nat.iterate (fun t => gfMul t a) 253 a) ∧ (∀ a : Byte, gfInv (gfInv a) = a) ∧
  Function.Bijective gfInv ∧ (∀ a : Byte, gfInv a = a ↔ a = 0x00 ∨ a = 0x01)

/-- R132, R133, which the spec marks as its own inference from R131: the S-box is a bijection with no fixed point and no
complement, no involution, and has the printed values. -/
def Obligations.SboxIsTheStandardTable : Prop :=
  Function.Bijective sbox ∧ (∀ a : Byte, sbox a ≠ a) ∧ (∀ a : Byte, sbox a ≠ ~~~a) ∧ sbox (sbox 0x00) = 0xFB ∧
  (∀ a : Byte, printedSbox[a.toNat]? = some (sbox a))

/-- R140 to R143: each transform, byte by byte; R142 in its written-out form, R143 as the exclusive-or of the words. -/
def Obligations.TransformsActByteByByte : Prop :=
  (∀ (s : Block) (r c : Fin 4), (subBytes s).cell r c = sbox (s.cell r c)) ∧
  (∀ (s : Block) (r c : Fin 4), (shiftRows s).cell r c = s.cell r ⟨(c.val + r.val) % 4, Nat.mod_lt _ (by decide)⟩) ∧
  (∀ (s : Block) (c : Fin 4), (mixColumns s).word c = wordOf
    (xtime (s.cell 0 c) ^^^ (xtime (s.cell 1 c) ^^^ s.cell 1 c) ^^^ s.cell 2 c ^^^ s.cell 3 c)
    (s.cell 0 c ^^^ xtime (s.cell 1 c) ^^^ (xtime (s.cell 2 c) ^^^ s.cell 2 c) ^^^ s.cell 3 c)
    (s.cell 0 c ^^^ s.cell 1 c ^^^ xtime (s.cell 2 c) ^^^ (xtime (s.cell 3 c) ^^^ s.cell 3 c))
    ((xtime (s.cell 0 c) ^^^ s.cell 0 c) ^^^ s.cell 1 c ^^^ s.cell 2 c ^^^ xtime (s.cell 3 c))) ∧
  (∀ s k : Block, keyAdd s k = ⟨s.w0 ^^^ k.w0, s.w1 ^^^ k.w1, s.w2 ^^^ k.w2, s.w3 ^^^ k.w3⟩)

/-- The laws of R149, which the spec marks as its own inference from R140 to R143. -/
def Obligations.TransformLawsHold : Prop :=
  (∀ s : Block, Nat.iterate shiftRows 4 s = s) ∧
  (∀ s : Block, List.Perm ((List.finRange 4).flatMap fun r => (List.finRange 4).map ((shiftRows s).cell r))
    ((List.finRange 4).flatMap fun r => (List.finRange 4).map (s.cell r))) ∧
  Function.Bijective subBytes ∧
  (∀ s u : Block, mixColumns (keyAdd s u) = keyAdd (mixColumns s) (mixColumns u)) ∧
  (∀ s k : Block, keyAdd (keyAdd s k) k = s) ∧ (∀ s : Block, subBytes (shiftRows s) = shiftRows (subBytes s))

/-- The recurrence of R160 and the values of R161, which the spec marks as its own inference from R160. -/
def Obligations.RoundConstantsAreTheSpecs : Prop :=
  rcon 1 = 0x01 ∧ (∀ i : Nat, 2 ≤ i → i ≤ 10 → rcon i = xtime (rcon (i - 1))) ∧
  [rcon 1, rcon 2, rcon 3, rcon 4, rcon 5, rcon 6, rcon 7, rcon 8, rcon 9, rcon 10] =
    [0x01, 0x02, 0x04, 0x08, 0x10, 0x20, 0x40, 0x80, 0x1B, 0x36]

/-- The word recurrence of R164, which the spec marks as its own inference from R163, with RotWord and SubWord (R162)
written out on bytes. -/
def Obligations.KeyScheduleFollowsTheWordRecurrence : Prop :=
  (∀ (k : Block) (c : Fin 4), (expandKey k)[c.val] = k.word c) ∧
  (∀ (k : Block) (n : Nat) (h : n < 44), 4 ≤ n → n % 4 ≠ 0 →
    (expandKey k)[n] = (expandKey k)[n - 4] ^^^ (expandKey k)[n - 1]) ∧
  (∀ (k : Block) (n : Nat) (h : n < 44), 4 ≤ n → n % 4 = 0 →
    (expandKey k)[n] = (expandKey k)[n - 4] ^^^
      (wordOf (sbox (byteOf (expandKey k)[n - 1] 1)) (sbox (byteOf (expandKey k)[n - 1] 2))
        (sbox (byteOf (expandKey k)[n - 1] 3)) (sbox (byteOf (expandKey k)[n - 1] 0))
      ^^^ wordOf (rcon (n / 4)) 0 0 0))

/-- The equivalence of R181, which the spec marks as its own inference: the cipher is the eleven rounds in order over the
expanded key. -/
def Obligations.CipherIsElevenRounds : Prop :=
  ∀ k p : Block, cipher k p = (List.finRange 11).foldl (fun s r => cipherRound s (expandKey k) r) p
end

