-- ==== Sys2Proof/Laws/Block.lean ====
section
/-! SUPPORT. Bytes in words and words in blocks: reading a cell of a block built from cells, and a block is its cells. -/

namespace Sys2Proof

@[simp] theorem byteOf_wordOf_0 (b0 b1 b2 b3 : Byte) : byteOf (wordOf b0 b1 b2 b3) 0 = b0 := by
  ext i hi
  simp only [byteOf, wordOf, Fin.val_zero, BitVec.getElem_extractLsb', BitVec.getLsbD_append]
  rw [if_neg (by omega), if_neg (by omega), if_neg (by omega), ← BitVec.getLsbD_eq_getElem]
  congr 1; omega

@[simp] theorem byteOf_wordOf_1 (b0 b1 b2 b3 : Byte) : byteOf (wordOf b0 b1 b2 b3) 1 = b1 := by
  ext i hi
  simp only [byteOf, wordOf, Fin.val_one, BitVec.getElem_extractLsb', BitVec.getLsbD_append]
  rw [if_neg (by omega), if_neg (by omega), if_pos (by omega), ← BitVec.getLsbD_eq_getElem]
  congr 1; omega

@[simp] theorem byteOf_wordOf_2 (b0 b1 b2 b3 : Byte) : byteOf (wordOf b0 b1 b2 b3) 2 = b2 := by
  ext i hi
  simp only [byteOf, wordOf, Fin.val_two, BitVec.getElem_extractLsb', BitVec.getLsbD_append]
  rw [if_neg (by omega), if_pos (by omega), ← BitVec.getLsbD_eq_getElem]
  congr 1; omega

@[simp] theorem byteOf_wordOf_3 (b0 b1 b2 b3 : Byte) : byteOf (wordOf b0 b1 b2 b3) 3 = b3 := by
  ext i hi
  have h3 : (3 : Fin 4).val = 3 := rfl
  simp only [byteOf, wordOf, h3, BitVec.getElem_extractLsb', BitVec.getLsbD_append]
  rw [if_pos (by omega), ← BitVec.getLsbD_eq_getElem]
  congr 1; omega

/-- A word is its four bytes. -/
theorem wordOf_bytes (w : Word) : wordOf (byteOf w 0) (byteOf w 1) (byteOf w 2) (byteOf w 3) = w := by
  have h3 : (3 : Fin 4).val = 3 := rfl
  ext i hi
  simp only [wordOf, byteOf, Fin.val_zero, Fin.val_one, Fin.val_two, h3, ← BitVec.getLsbD_eq_getElem,
    BitVec.getLsbD_append, BitVec.getLsbD_extractLsb']
  split
  · simp [*]
  · split
    · simp only [show i - 8 < 8 from ‹_›, decide_true, Bool.true_and]; congr 1; omega
    · split
      · simp only [show i - 8 - 8 < 8 from ‹_›, decide_true, Bool.true_and]; congr 1; omega
      · simp only [show i - 8 - 8 - 8 < 8 by omega, decide_true, Bool.true_and]; congr 1; omega

/-- Words with the same bytes are equal. -/
theorem word_ext {v w : Word} (h : ∀ i, byteOf v i = byteOf w i) : v = w := by
  rw [← wordOf_bytes v, ← wordOf_bytes w, h 0, h 1, h 2, h 3]

@[simp] theorem byteOf_xor (v w : Word) (i : Fin 4) : byteOf (v ^^^ w) i = byteOf v i ^^^ byteOf w i := by
  ext k hk
  simp [byteOf]

/-- Blocks with the same words are equal. -/
theorem block_ext {s t : Block} (h : ∀ c, s.word c = t.word c) : s = t := by
  cases s; cases t
  have := h 0; have := h 1; have := h 2; have := h 3
  simp_all [Block.word]

/-- Blocks with the same cells are equal. -/
theorem cell_ext {s t : Block} (h : ∀ r c, s.cell r c = t.cell r c) : s = t :=
  block_ext fun c => word_ext fun r => h r c

@[simp] theorem word_ofCells (f : Fin 4 → Fin 4 → Byte) (c : Fin 4) : (Block.ofCells f).word c = columnOf f c := by
  match c with
  | 0 => rfl
  | 1 => rfl
  | 2 => rfl
  | 3 => rfl

@[simp] theorem cell_ofCells (f : Fin 4 → Fin 4 → Byte) (r c : Fin 4) : (Block.ofCells f).cell r c = f r c := by
  unfold Block.cell
  rw [word_ofCells, columnOf]
  match r with
  | 0 => exact byteOf_wordOf_0 ..
  | 1 => exact byteOf_wordOf_1 ..
  | 2 => exact byteOf_wordOf_2 ..
  | 3 => exact byteOf_wordOf_3 ..

end Sys2Proof
end

