-- ==== Sys2Proof/Laws/Cipher.lean ====
section
/-! SUPPORT. What each transform does to one cell, and round key `k` of an expansion. -/

namespace Sys2Proof.Machine

theorem subBytes_cell (s : Block) (r c : Fin 4) : (subBytes s).cell r c = sbox (s.cell r c) := cell_ofCells ..

theorem shiftRows_cell (s : Block) (r c : Fin 4) : (shiftRows s).cell r c = s.cell r (c + r) := cell_ofCells ..

theorem mixColumns_cell (s : Block) (r c : Fin 4) : (mixColumns s).cell r c =
    gfMul (mixRow r 0) (s.cell 0 c) ^^^ gfMul (mixRow r 1) (s.cell 1 c)
      ^^^ gfMul (mixRow r 2) (s.cell 2 c) ^^^ gfMul (mixRow r 3) (s.cell 3 c) := cell_ofCells ..

theorem keyAdd_cell (s k : Block) (r c : Fin 4) : (keyAdd s k).cell r c = s.cell r c ^^^ k.cell r c := cell_ofCells ..

theorem expandKey_getElem (k : Block) (i : Nat) (c : Fin 4) (h : 4 * i + c.val < 44) :
    (expandKey k)[4 * i + c.val] = (roundKey k i).word c := by
  have h1 : (4 * i + c.val) / 4 = i := by omega
  simp only [expandKey, Vector.getElem_ofFn, h1]
  congr 1
  ext
  simp only
  omega

/-- Round key `k` read from an expanded key (R25, R163). -/
theorem rkey_expandKey (k : Block) (i : Fin 11) : rkey (expandKey k) i = roundKey k i.val := by
  have h0 := expandKey_getElem k i.val 0 (by simp only [Fin.val_zero]; omega)
  have h1 := expandKey_getElem k i.val 1 (by simp only [Fin.val_one]; omega)
  have h2 := expandKey_getElem k i.val 2 (by simp only [Fin.val_two]; omega)
  have h3 := expandKey_getElem k i.val 3 (by change 4 * i.val + 3 < 44; omega)
  change Block.mk _ _ _ _ = Block.mk _ _ _ _
  exact congr (congr (congr (congrArg Block.mk h0) h1) h2) h3

end Sys2Proof.Machine
end

