-- ==== Sys2Proof/Laws/State.lean ====
section
/-! SUPPORT. One lemma per field per update of `State` and of `Status`, so that no later proof unfolds a record update. -/

namespace Sys2Proof.Machine

/-! ## Updates of STATUS -/

@[simp] theorem Status.clearError_busy (st : Status) : (st.clearError).busy = st.busy := rfl
@[simp] theorem Status.clearError_err (st : Status) : (st.clearError).err = false := rfl
@[simp] theorem Status.clearError_errCode (st : Status) : (st.clearError).errCode = 0 := rfl
@[simp] theorem Status.clearError_keyValid (st : Status) : (st.clearError).keyValid = st.keyValid := rfl
@[simp] theorem Status.clearError_stateValid (st : Status) : (st.clearError).stateValid = st.stateValid := rfl
@[simp] theorem Status.clearError_rkValid (st : Status) : (st.clearError).rkValid = st.rkValid := rfl

@[simp] theorem Status.keyWritten_busy (st : Status) (j : Fin 4) : (st.keyWritten j).busy = st.busy := rfl
@[simp] theorem Status.keyWritten_err (st : Status) (j : Fin 4) : (st.keyWritten j).err = st.err := rfl
@[simp] theorem Status.keyWritten_errCode (st : Status) (j : Fin 4) : (st.keyWritten j).errCode = st.errCode := rfl
@[simp] theorem Status.keyWritten_keyValid (st : Status) (j : Fin 4) : (st.keyWritten j).keyValid = st.keyValid ||| 1#4 <<< j.val := rfl
@[simp] theorem Status.keyWritten_stateValid (st : Status) (j : Fin 4) : (st.keyWritten j).stateValid = st.stateValid := rfl
@[simp] theorem Status.keyWritten_rkValid (st : Status) (j : Fin 4) : (st.keyWritten j).rkValid = false := rfl

@[simp] theorem Status.stateWritten_busy (st : Status) (c : Fin 4) : (st.stateWritten c).busy = st.busy := rfl
@[simp] theorem Status.stateWritten_err (st : Status) (c : Fin 4) : (st.stateWritten c).err = st.err := rfl
@[simp] theorem Status.stateWritten_errCode (st : Status) (c : Fin 4) : (st.stateWritten c).errCode = st.errCode := rfl
@[simp] theorem Status.stateWritten_keyValid (st : Status) (c : Fin 4) : (st.stateWritten c).keyValid = st.keyValid := rfl
@[simp] theorem Status.stateWritten_stateValid (st : Status) (c : Fin 4) : (st.stateWritten c).stateValid = st.stateValid ||| 1#4 <<< c.val := rfl
@[simp] theorem Status.stateWritten_rkValid (st : Status) (c : Fin 4) : (st.stateWritten c).rkValid = st.rkValid := rfl

@[simp] theorem Status.started_busy (st : Status) : (st.started).busy = true := rfl
@[simp] theorem Status.started_err (st : Status) : (st.started).err = st.err := rfl
@[simp] theorem Status.started_errCode (st : Status) : (st.started).errCode = st.errCode := rfl
@[simp] theorem Status.started_keyValid (st : Status) : (st.started).keyValid = st.keyValid := rfl
@[simp] theorem Status.started_stateValid (st : Status) : (st.started).stateValid = st.stateValid := rfl
@[simp] theorem Status.started_rkValid (st : Status) : (st.started).rkValid = st.rkValid := rfl

@[simp] theorem Status.finished_busy (st : Status) : (st.finished).busy = false := rfl
@[simp] theorem Status.finished_err (st : Status) : (st.finished).err = st.err := rfl
@[simp] theorem Status.finished_errCode (st : Status) : (st.finished).errCode = st.errCode := rfl
@[simp] theorem Status.finished_keyValid (st : Status) : (st.finished).keyValid = st.keyValid := rfl
@[simp] theorem Status.finished_stateValid (st : Status) : (st.finished).stateValid = st.stateValid := rfl
@[simp] theorem Status.finished_rkValid (st : Status) : (st.finished).rkValid = st.rkValid := rfl

@[simp] theorem Status.roundKeysWritten_busy (st : Status) : (st.roundKeysWritten).busy = st.busy := rfl
@[simp] theorem Status.roundKeysWritten_err (st : Status) : (st.roundKeysWritten).err = st.err := rfl
@[simp] theorem Status.roundKeysWritten_errCode (st : Status) : (st.roundKeysWritten).errCode = st.errCode := rfl
@[simp] theorem Status.roundKeysWritten_keyValid (st : Status) : (st.roundKeysWritten).keyValid = st.keyValid := rfl
@[simp] theorem Status.roundKeysWritten_stateValid (st : Status) : (st.roundKeysWritten).stateValid = st.stateValid := rfl
@[simp] theorem Status.roundKeysWritten_rkValid (st : Status) : (st.roundKeysWritten).rkValid = true := rfl

@[simp] theorem Status.latch_busy (st : Status) (e : ErrorCode) : (st.latch e).busy = st.busy := by unfold Status.latch; split <;> rfl
@[simp] theorem Status.latch_keyValid (st : Status) (e : ErrorCode) : (st.latch e).keyValid = st.keyValid := by unfold Status.latch; split <;> rfl
@[simp] theorem Status.latch_stateValid (st : Status) (e : ErrorCode) : (st.latch e).stateValid = st.stateValid := by unfold Status.latch; split <;> rfl
@[simp] theorem Status.latch_rkValid (st : Status) (e : ErrorCode) : (st.latch e).rkValid = st.rkValid := by unfold Status.latch; split <;> rfl
@[simp] theorem Status.latch_err (st : Status) (e : ErrorCode) : (st.latch e).err = true := by unfold Status.latch; split <;> simp_all
theorem Status.latch_errCode (st : Status) (e : ErrorCode) :
    (st.latch e).errCode = if st.err then st.errCode else e.code := by unfold Status.latch; split <;> rfl

/-- The first error is kept (R211). -/
theorem Status.latch_of_err {st : Status} (h : st.err = true) (e : ErrorCode) : st.latch e = st := by simp [Status.latch, h]

/-- With no error latched the code is recorded (R211). -/
theorem Status.latch_of_no_err {st : Status} (h : st.err = false) (e : ErrorCode) :
    st.latch e = { st with err := true, errCode := e.code } := by simp [Status.latch, h]

@[simp] theorem Status.write_busy (st : Status) (v : Word) : (st.write v).busy = st.busy := by unfold Status.write; split <;> rfl
@[simp] theorem Status.write_keyValid (st : Status) (v : Word) : (st.write v).keyValid = st.keyValid := by unfold Status.write; split <;> rfl
@[simp] theorem Status.write_stateValid (st : Status) (v : Word) : (st.write v).stateValid = st.stateValid := by unfold Status.write; split <;> rfl
@[simp] theorem Status.write_rkValid (st : Status) (v : Word) : (st.write v).rkValid = st.rkValid := by unfold Status.write; split <;> rfl
theorem Status.write_err (st : Status) (v : Word) :
    (st.write v).err = (st.err && !v.getLsbD 1) := by unfold Status.write; split <;> simp_all
theorem Status.write_errCode (st : Status) (v : Word) :
    (st.write v).errCode = if v.getLsbD 1 then 0 else st.errCode := by unfold Status.write; split <;> rfl

/-! ## Updates of the state -/

@[simp] theorem State.writeKey_key (s : State) (j : Fin 4) (v : Word) : (s.writeKey j v).key = s.key.setWord j v := rfl
@[simp] theorem State.writeKey_state (s : State) (j : Fin 4) (v : Word) : (s.writeKey j v).state = s.state := rfl
@[simp] theorem State.writeKey_rk (s : State) (j : Fin 4) (v : Word) : (s.writeKey j v).rk = s.rk := rfl
@[simp] theorem State.writeKey_gfResult (s : State) (j : Fin 4) (v : Word) : (s.writeKey j v).gfResult = s.gfResult := rfl
@[simp] theorem State.writeKey_status (s : State) (j : Fin 4) (v : Word) :
    (s.writeKey j v).status = s.status.keyWritten j := rfl
@[simp] theorem State.writeKey_pending (s : State) (j : Fin 4) (v : Word) : (s.writeKey j v).pending = s.pending := rfl
@[simp] theorem State.writeKey_events (s : State) (j : Fin 4) (v : Word) : (s.writeKey j v).events = s.events := rfl
@[simp] theorem State.writeKey_responses (s : State) (j : Fin 4) (v : Word) : (s.writeKey j v).responses = s.responses := rfl
@[simp] theorem State.writeKey_draws (s : State) (j : Fin 4) (v : Word) : (s.writeKey j v).draws = s.draws := rfl

@[simp] theorem State.writeState_key (s : State) (c : Fin 4) (v : Word) : (s.writeState c v).key = s.key := rfl
@[simp] theorem State.writeState_state (s : State) (c : Fin 4) (v : Word) :
    (s.writeState c v).state = s.state.setWord c v := rfl
@[simp] theorem State.writeState_rk (s : State) (c : Fin 4) (v : Word) : (s.writeState c v).rk = s.rk := rfl
@[simp] theorem State.writeState_gfResult (s : State) (c : Fin 4) (v : Word) : (s.writeState c v).gfResult = s.gfResult := rfl
@[simp] theorem State.writeState_status (s : State) (c : Fin 4) (v : Word) :
    (s.writeState c v).status = s.status.stateWritten c := rfl
@[simp] theorem State.writeState_pending (s : State) (c : Fin 4) (v : Word) : (s.writeState c v).pending = s.pending := rfl
@[simp] theorem State.writeState_events (s : State) (c : Fin 4) (v : Word) : (s.writeState c v).events = s.events := rfl
@[simp] theorem State.writeState_responses (s : State) (c : Fin 4) (v : Word) :
    (s.writeState c v).responses = s.responses := rfl
@[simp] theorem State.writeState_draws (s : State) (c : Fin 4) (v : Word) : (s.writeState c v).draws = s.draws := rfl

@[simp] theorem State.writeStatus_key (s : State) (v : Word) : (s.writeStatus v).key = s.key := rfl
@[simp] theorem State.writeStatus_state (s : State) (v : Word) : (s.writeStatus v).state = s.state := rfl
@[simp] theorem State.writeStatus_rk (s : State) (v : Word) : (s.writeStatus v).rk = s.rk := rfl
@[simp] theorem State.writeStatus_gfResult (s : State) (v : Word) : (s.writeStatus v).gfResult = s.gfResult := rfl
@[simp] theorem State.writeStatus_status (s : State) (v : Word) : (s.writeStatus v).status = s.status.write v := rfl
@[simp] theorem State.writeStatus_pending (s : State) (v : Word) : (s.writeStatus v).pending = s.pending := rfl
@[simp] theorem State.writeStatus_events (s : State) (v : Word) : (s.writeStatus v).events = s.events := rfl
@[simp] theorem State.writeStatus_responses (s : State) (v : Word) : (s.writeStatus v).responses = s.responses := rfl
@[simp] theorem State.writeStatus_draws (s : State) (v : Word) : (s.writeStatus v).draws = s.draws := rfl

@[simp] theorem State.setGfResult_key (s : State) (v : Byte) : (s.setGfResult v).key = s.key := rfl
@[simp] theorem State.setGfResult_state (s : State) (v : Byte) : (s.setGfResult v).state = s.state := rfl
@[simp] theorem State.setGfResult_rk (s : State) (v : Byte) : (s.setGfResult v).rk = s.rk := rfl
@[simp] theorem State.setGfResult_gfResult (s : State) (v : Byte) : (s.setGfResult v).gfResult = v := rfl
@[simp] theorem State.setGfResult_status (s : State) (v : Byte) : (s.setGfResult v).status = s.status := rfl
@[simp] theorem State.setGfResult_pending (s : State) (v : Byte) : (s.setGfResult v).pending = s.pending := rfl
@[simp] theorem State.setGfResult_events (s : State) (v : Byte) : (s.setGfResult v).events = s.events := rfl
@[simp] theorem State.setGfResult_responses (s : State) (v : Byte) : (s.setGfResult v).responses = s.responses := rfl
@[simp] theorem State.setGfResult_draws (s : State) (v : Byte) : (s.setGfResult v).draws = s.draws := rfl

@[simp] theorem State.setState_key (s : State) (b : Block) : (s.setState b).key = s.key := rfl
@[simp] theorem State.setState_state (s : State) (b : Block) : (s.setState b).state = b := rfl
@[simp] theorem State.setState_rk (s : State) (b : Block) : (s.setState b).rk = s.rk := rfl
@[simp] theorem State.setState_gfResult (s : State) (b : Block) : (s.setState b).gfResult = s.gfResult := rfl
@[simp] theorem State.setState_status (s : State) (b : Block) : (s.setState b).status = s.status := rfl
@[simp] theorem State.setState_pending (s : State) (b : Block) : (s.setState b).pending = s.pending := rfl
@[simp] theorem State.setState_events (s : State) (b : Block) : (s.setState b).events = s.events := rfl
@[simp] theorem State.setState_responses (s : State) (b : Block) : (s.setState b).responses = s.responses := rfl
@[simp] theorem State.setState_draws (s : State) (b : Block) : (s.setState b).draws = s.draws := rfl

@[simp] theorem State.setRoundKeys_key (s : State) (r : Vector Word 44) : (s.setRoundKeys r).key = s.key := rfl
@[simp] theorem State.setRoundKeys_state (s : State) (r : Vector Word 44) : (s.setRoundKeys r).state = s.state := rfl
@[simp] theorem State.setRoundKeys_rk (s : State) (r : Vector Word 44) : (s.setRoundKeys r).rk = r := rfl
@[simp] theorem State.setRoundKeys_gfResult (s : State) (r : Vector Word 44) : (s.setRoundKeys r).gfResult = s.gfResult := rfl
@[simp] theorem State.setRoundKeys_status (s : State) (r : Vector Word 44) :
    (s.setRoundKeys r).status = s.status.roundKeysWritten := rfl
@[simp] theorem State.setRoundKeys_pending (s : State) (r : Vector Word 44) : (s.setRoundKeys r).pending = s.pending := rfl
@[simp] theorem State.setRoundKeys_events (s : State) (r : Vector Word 44) : (s.setRoundKeys r).events = s.events := rfl
@[simp] theorem State.setRoundKeys_responses (s : State) (r : Vector Word 44) :
    (s.setRoundKeys r).responses = s.responses := rfl
@[simp] theorem State.setRoundKeys_draws (s : State) (r : Vector Word 44) : (s.setRoundKeys r).draws = s.draws := rfl

@[simp] theorem State.latchError_key (s : State) (e : ErrorCode) : (s.latchError e).key = s.key := rfl
@[simp] theorem State.latchError_state (s : State) (e : ErrorCode) : (s.latchError e).state = s.state := rfl
@[simp] theorem State.latchError_rk (s : State) (e : ErrorCode) : (s.latchError e).rk = s.rk := rfl
@[simp] theorem State.latchError_gfResult (s : State) (e : ErrorCode) : (s.latchError e).gfResult = s.gfResult := rfl
@[simp] theorem State.latchError_status (s : State) (e : ErrorCode) : (s.latchError e).status = s.status.latch e := rfl
@[simp] theorem State.latchError_pending (s : State) (e : ErrorCode) : (s.latchError e).pending = s.pending := rfl
@[simp] theorem State.latchError_events (s : State) (e : ErrorCode) : (s.latchError e).events = s.events := rfl
@[simp] theorem State.latchError_responses (s : State) (e : ErrorCode) : (s.latchError e).responses = s.responses := rfl
@[simp] theorem State.latchError_draws (s : State) (e : ErrorCode) : (s.latchError e).draws = s.draws := rfl

@[simp] theorem State.accept_key (s : State) (i : Instr) : (s.accept i).key = s.key := rfl
@[simp] theorem State.accept_state (s : State) (i : Instr) : (s.accept i).state = s.state := rfl
@[simp] theorem State.accept_rk (s : State) (i : Instr) : (s.accept i).rk = s.rk := rfl
@[simp] theorem State.accept_gfResult (s : State) (i : Instr) : (s.accept i).gfResult = s.gfResult := rfl
@[simp] theorem State.accept_status (s : State) (i : Instr) : (s.accept i).status = s.status.started := rfl
@[simp] theorem State.accept_pending (s : State) (i : Instr) : (s.accept i).pending = some i := rfl
@[simp] theorem State.accept_events (s : State) (i : Instr) : (s.accept i).events = s.events := rfl
@[simp] theorem State.accept_responses (s : State) (i : Instr) : (s.accept i).responses = s.responses := rfl
@[simp] theorem State.accept_draws (s : State) (i : Instr) : (s.accept i).draws = s.draws := rfl

@[simp] theorem State.retire_key (s : State) : (s.retire).key = s.key := rfl
@[simp] theorem State.retire_state (s : State) : (s.retire).state = s.state := rfl
@[simp] theorem State.retire_rk (s : State) : (s.retire).rk = s.rk := rfl
@[simp] theorem State.retire_gfResult (s : State) : (s.retire).gfResult = s.gfResult := rfl
@[simp] theorem State.retire_status (s : State) : (s.retire).status = s.status.finished := rfl
@[simp] theorem State.retire_pending (s : State) : (s.retire).pending = none := rfl
@[simp] theorem State.retire_events (s : State) : (s.retire).events = s.events := rfl
@[simp] theorem State.retire_responses (s : State) : (s.retire).responses = s.responses := rfl
@[simp] theorem State.retire_draws (s : State) : (s.retire).draws = s.draws := rfl

@[simp] theorem State.respond_key (s : State) (r : Response) : (s.respond r).key = s.key := rfl
@[simp] theorem State.respond_state (s : State) (r : Response) : (s.respond r).state = s.state := rfl
@[simp] theorem State.respond_rk (s : State) (r : Response) : (s.respond r).rk = s.rk := rfl
@[simp] theorem State.respond_gfResult (s : State) (r : Response) : (s.respond r).gfResult = s.gfResult := rfl
@[simp] theorem State.respond_status (s : State) (r : Response) : (s.respond r).status = s.status := rfl
@[simp] theorem State.respond_pending (s : State) (r : Response) : (s.respond r).pending = s.pending := rfl
@[simp] theorem State.respond_events (s : State) (r : Response) : (s.respond r).events = s.events := rfl
@[simp] theorem State.respond_responses (s : State) (r : Response) : (s.respond r).responses = r :: s.responses := rfl
@[simp] theorem State.respond_draws (s : State) (r : Response) : (s.respond r).draws = s.draws := rfl

@[simp] theorem State.setEvents_key (s : State) (es : List Event) : (s.setEvents es).key = s.key := rfl
@[simp] theorem State.setEvents_state (s : State) (es : List Event) : (s.setEvents es).state = s.state := rfl
@[simp] theorem State.setEvents_rk (s : State) (es : List Event) : (s.setEvents es).rk = s.rk := rfl
@[simp] theorem State.setEvents_gfResult (s : State) (es : List Event) : (s.setEvents es).gfResult = s.gfResult := rfl
@[simp] theorem State.setEvents_status (s : State) (es : List Event) : (s.setEvents es).status = s.status := rfl
@[simp] theorem State.setEvents_pending (s : State) (es : List Event) : (s.setEvents es).pending = s.pending := rfl
@[simp] theorem State.setEvents_events (s : State) (es : List Event) : (s.setEvents es).events = es := rfl
@[simp] theorem State.setEvents_responses (s : State) (es : List Event) : (s.setEvents es).responses = s.responses := rfl
@[simp] theorem State.setEvents_draws (s : State) (es : List Event) : (s.setEvents es).draws = s.draws := rfl

@[simp] theorem State.answerRead_key (s : State) (r : Reg) : (s.answerRead r).key = s.key := rfl
@[simp] theorem State.answerRead_state (s : State) (r : Reg) : (s.answerRead r).state = s.state := rfl
@[simp] theorem State.answerRead_rk (s : State) (r : Reg) : (s.answerRead r).rk = s.rk := rfl
@[simp] theorem State.answerRead_gfResult (s : State) (r : Reg) : (s.answerRead r).gfResult = s.gfResult := rfl
@[simp] theorem State.answerRead_status (s : State) (r : Reg) : (s.answerRead r).status = s.status := rfl
@[simp] theorem State.answerRead_pending (s : State) (r : Reg) : (s.answerRead r).pending = s.pending := rfl
@[simp] theorem State.answerRead_events (s : State) (r : Reg) : (s.answerRead r).events = s.events := rfl
@[simp] theorem State.answerRead_responses (s : State) (r : Reg) :
    (s.answerRead r).responses = .readData (s.readValue r) :: s.responses := rfl
@[simp] theorem State.answerRead_draws (s : State) (r : Reg) :
    (s.answerRead r).draws = if s.status.busy ∧ r.holdsData then s.draws + 1 else s.draws := rfl

@[simp] theorem State.resetEvent_key (s : State) : (s.resetEvent).key = zeroBlock := rfl
@[simp] theorem State.resetEvent_state (s : State) : (s.resetEvent).state = zeroBlock := rfl
@[simp] theorem State.resetEvent_rk (s : State) : (s.resetEvent).rk = Vector.replicate 44 0 := rfl
@[simp] theorem State.resetEvent_gfResult (s : State) : (s.resetEvent).gfResult = 0 := rfl
@[simp] theorem State.resetEvent_status (s : State) : (s.resetEvent).status = Status.reset := rfl
@[simp] theorem State.resetEvent_pending (s : State) : (s.resetEvent).pending = none := rfl
@[simp] theorem State.resetEvent_events (s : State) : (s.resetEvent).events = s.events := rfl
@[simp] theorem State.resetEvent_responses (s : State) : (s.resetEvent).responses = s.responses := rfl
@[simp] theorem State.resetEvent_draws (s : State) : (s.resetEvent).draws = s.draws := rfl

end Sys2Proof.Machine
end

