-- ==== Sys2Proof/Laws/Command.lean ====
section
/-! SUPPORT. What `exec` can do, said once: every command goes through `commandLifeCycle` with its own checks and effect. -/

namespace Sys2Proof.Machine

/-- The issue checks of a command, in order. -/
def checksOf (i : Instr) (s : State) : List (Option ErrorCode) :=
  match i with
  | .nop | .gfAdd _ _ | .gfXtime _ | .gfMul _ _ | .gfInv _ | .gfSbox _ => []
  | .gfRcon i => [needIndex (rconIndex i)]
  | .subBytes | .shiftRows | .mixColumns => [needState s]
  | .addRoundKey k => [needIndex (roundIndex k), needState s, needRoundKeys s]
  | .expandKey => [needKey s]
  | .cipherRound r => [needIndex (roundIndex r), needState s, needRoundKeys s]
  | .encrypt => [needKey s, needState s]

/-- The completion of a command, before PENDING and BUSY are cleared. -/
def effectOf (i : Instr) (s : State) : Option State :=
  match i with
  | .nop => some s
  | .gfAdd a b => some (s.setGfResult (gfAdd a b))
  | .gfXtime a => some (s.setGfResult (xtime a))
  | .gfMul a b => some (s.setGfResult (gfMul a b))
  | .gfInv a => some (s.setGfResult (gfInv a))
  | .gfSbox a => some (s.setGfResult (sbox a))
  | .gfRcon i => ((rconIndex i).map rcon).map s.setGfResult
  | .subBytes => some (s.setState (subBytes s.state))
  | .shiftRows => some (s.setState (shiftRows s.state))
  | .mixColumns => some (s.setState (mixColumns s.state))
  | .addRoundKey k => ((roundIndex k).map fun k => keyAdd s.state (rkey s.rk k)).map s.setState
  | .expandKey => some (s.setRoundKeys (expandKey s.key))
  | .cipherRound r => ((roundIndex r).map (cipherRound s.state s.rk)).map s.setState
  | .encrypt => some ((s.setRoundKeys (expandKey s.key)).setState (cipher s.key s.state))

theorem exec_eq_lifeCycle (i : Instr) (s : State) : exec i s = commandLifeCycle i (checksOf i) (effectOf i) s := by
  cases i <;> rfl

/-- Completion of the command in flight. -/
theorem exec_of_busy {i : Instr} {s : State} (hb : s.status.busy = true) (hp : s.pending = some i) :
    exec i s = match effectOf i s with
      | some t => .next t.retire
      | none => .fault .indexNotDefined := by
  simp only [exec_eq_lifeCycle, commandLifeCycle, hb, hp, if_true] <;> rfl

/-- Issue of a command in an idle block. -/
theorem exec_of_idle {i : Instr} {s : State} (hb : s.status.busy = false) (he : s.status.err = false) :
    exec i s = match firstError (checksOf i s) with
      | some e => .next (s.latchError e)
      | none => .next (s.accept i) := by
  simp only [exec_eq_lifeCycle, commandLifeCycle, hb, he, Bool.false_eq_true, if_false] <;> rfl

/-- While an error is latched a command is dropped. -/
theorem exec_of_error {i : Instr} {s : State} (hb : s.status.busy = false) (he : s.status.err = true) :
    exec i s = .next s := by
  simp [exec_eq_lifeCycle, commandLifeCycle, hb, he]

/-- Everything `exec` can do when it answers a next state. -/
theorem exec_next {i : Instr} {s t : State} (h : exec i s = .next t) :
    (s.status.busy = true ∧ s.pending = some i ∧ ∃ u, effectOf i s = some u ∧ t = u.retire) ∨
    (s.status.busy = false ∧ s.status.err = true ∧ t = s) ∨
    (s.status.busy = false ∧ s.status.err = false ∧ ∃ e, firstError (checksOf i s) = some e ∧ t = s.latchError e) ∨
    (s.status.busy = false ∧ s.status.err = false ∧ firstError (checksOf i s) = none ∧ t = s.accept i) := by
  rw [exec_eq_lifeCycle, commandLifeCycle] at h
  split at h
  · rename_i hb
    split at h
    · rename_i hp
      split at h
      · rename_i u hu
        exact .inl ⟨hb, hp, u, hu, by injection h with h; exact h.symm⟩
      · cases h
    · cases h
  · rename_i hb
    have hb : s.status.busy = false := by simpa using hb
    split at h
    · rename_i he
      exact .inr (.inl ⟨hb, he, by injection h with h; exact h.symm⟩)
    · rename_i he
      have he : s.status.err = false := by simpa using he
      split at h
      · rename_i e hc
        exact .inr (.inr (.inl ⟨hb, he, e, hc, by injection h with h; exact h.symm⟩))
      · rename_i hc
        exact .inr (.inr (.inr ⟨hb, he, hc, by injection h with h; exact h.symm⟩))

/-! ## The issue checks and well-formedness -/

theorem firstError_cons_none {c : Option ErrorCode} {cs : List (Option ErrorCode)} :
    firstError (c :: cs) = none ↔ c = none ∧ firstError cs = none := by
  cases c <;> simp [firstError]

@[simp] theorem firstError_nil : firstError [] = none := rfl

theorem rconIndex_passes (b : Byte) : needIndex (rconIndex b) = none ↔ (Instr.gfRcon b).wellFormed = true := by
  unfold rconIndex Instr.wellFormed; split <;> simp_all [needIndex]

theorem roundIndex_passes (b : Byte) : needIndex (roundIndex b) = none ↔ b.toNat ≤ 10 := by
  unfold roundIndex; split <;> simp [needIndex] <;> omega

theorem needKey_passes (s : State) : needKey s = none ↔ s.status.keyValid = 0xF := by simp [needKey]
theorem needState_passes (s : State) : needState s = none ↔ s.status.stateValid = 0xF := by simp [needState]
theorem needRoundKeys_passes (s : State) : needRoundKeys s = none ↔ s.status.rkValid = true := by simp [needRoundKeys]

theorem mayRun_iff (i : Instr) (s : State) : MayRun i s ↔ i.wellFormed = true ∧
    (readsKey i = true → s.status.keyValid = 0xF) ∧ (readsState i = true → s.status.stateValid = 0xF) ∧
    (readsRoundKeys i = true → s.status.rkValid = true) :=
  ⟨fun ⟨a, b, c, d⟩ => ⟨a, b, c, d⟩, fun ⟨a, b, c, d⟩ => ⟨a, b, c, d⟩⟩

/-- The checks all pass exactly when the command may run. -/
theorem checks_pass_iff (i : Instr) (s : State) : firstError (checksOf i s) = none ↔ MayRun i s := by
  rw [mayRun_iff]
  cases i <;>
    simp [checksOf, firstError_cons_none, rconIndex_passes, roundIndex_passes, needKey_passes, needState_passes,
      needRoundKeys_passes, readsKey, readsState, readsRoundKeys, Instr.wellFormed]

/-- A command that may run has a completion. -/
theorem effectOf_isSome {i : Instr} {s : State} (h : i.wellFormed = true) : ∃ u, effectOf i s = some u := by
  cases i <;> simp_all [effectOf, Instr.wellFormed, rconIndex, roundIndex]
  all_goals omega

end Sys2Proof.Machine
end

