-- ==== Sys2Proof/Laws/Decode.lean ====
section
/-! SUPPORT. The fields of a packed command word, and the decoding of a word by its fields. -/

namespace Sys2Proof

@[simp] theorem opcOf_packFields (opc rsv a b : Byte) : opcOf (packFields opc rsv a b) = opc := by
  ext i hi
  simp only [opcOf, packFields, BitVec.getElem_extractLsb', BitVec.getLsbD_append]
  rw [if_neg (by omega), if_neg (by omega), if_neg (by omega), ← BitVec.getLsbD_eq_getElem]
  congr 1; omega

@[simp] theorem rsvOf_packFields (opc rsv a b : Byte) : rsvOf (packFields opc rsv a b) = rsv := by
  ext i hi
  simp only [rsvOf, packFields, BitVec.getElem_extractLsb', BitVec.getLsbD_append]
  rw [if_neg (by omega), if_neg (by omega), if_pos (by omega), ← BitVec.getLsbD_eq_getElem]
  congr 1; omega

@[simp] theorem aOf_packFields (opc rsv a b : Byte) : aOf (packFields opc rsv a b) = a := by
  ext i hi
  simp only [aOf, packFields, BitVec.getElem_extractLsb', BitVec.getLsbD_append]
  rw [if_neg (by omega), if_pos (by omega), ← BitVec.getLsbD_eq_getElem]
  congr 1; omega

@[simp] theorem bOf_packFields (opc rsv a b : Byte) : bOf (packFields opc rsv a b) = b := by
  ext i hi
  simp only [bOf, packFields, BitVec.getElem_extractLsb', BitVec.getLsbD_append]
  rw [if_pos (by omega), ← BitVec.getLsbD_eq_getElem]
  congr 1; omega

/-- A word is its four fields. -/
theorem packFields_fields (v : Word) : packFields (opcOf v) (rsvOf v) (aOf v) (bOf v) = v := by
  ext i hi
  simp only [packFields, opcOf, rsvOf, aOf, bOf, ← BitVec.getLsbD_eq_getElem, BitVec.getLsbD_append,
    BitVec.getLsbD_extractLsb']
  split
  · simp [*]
  · split
    · simp only [show i - 8 < 8 from ‹_›, decide_true, Bool.true_and]; congr 1; omega
    · split
      · simp only [show i - 8 - 8 < 8 from ‹_›, decide_true, Bool.true_and]; congr 1; omega
      · simp only [show i - 8 - 8 - 8 < 8 by omega, decide_true, Bool.true_and]; congr 1; omega

end Sys2Proof
end

