-- ==== Sys2Proof/Laws/PerInstr.lean ====
section
/-! SUPPORT. The family `EncodedFields`: what the encoder puts in the four fields of a command word (R80 to R83). -/

namespace Sys2Proof.Laws.EncodedFields

/-- RSV is 0 and the other fields are the row's. -/
def Statement (i : Instr) : Prop :=
  opcOf (encode i) = opcodeOf i ∧ rsvOf (encode i) = 0 ∧ aOf (encode i) = operandAOf i ∧ bOf (encode i) = operandBOf i

theorem of_packing (i : Instr) : Statement i :=
  ⟨opcOf_packFields .., rsvOf_packFields .., aOf_packFields .., bOf_packFields ..⟩

theorem nop : Statement .nop := of_packing _
theorem gfAdd (a b : Byte) : Statement (.gfAdd a b) := of_packing _
theorem gfXtime (a : Byte) : Statement (.gfXtime a) := of_packing _
theorem gfMul (a b : Byte) : Statement (.gfMul a b) := of_packing _
theorem gfInv (a : Byte) : Statement (.gfInv a) := of_packing _
theorem gfSbox (a : Byte) : Statement (.gfSbox a) := of_packing _
theorem gfRcon (i : Byte) : Statement (.gfRcon i) := of_packing _
theorem subBytes : Statement .subBytes := of_packing _
theorem shiftRows : Statement .shiftRows := of_packing _
theorem mixColumns : Statement .mixColumns := of_packing _
theorem addRoundKey (k : Byte) : Statement (.addRoundKey k) := of_packing _
theorem expandKey : Statement .expandKey := of_packing _
theorem cipherRound (r : Byte) : Statement (.cipherRound r) := of_packing _
theorem encrypt : Statement .encrypt := of_packing _

end Sys2Proof.Laws.EncodedFields
end

