-- ==== Sys2Proof/Laws/Step.lean ====
section
/-! SUPPORT. What one step can do, said once (`step_moves`), and what it does in each case. -/

namespace Sys2Proof.Machine

/-- The state in which the bus answers a legal write that was the next event. -/
def answered (s : State) (rest : List Event) : State := (s.setEvents rest).respond .writeDone

@[simp] theorem answered_key (s : State) (rest : List Event) : (answered s rest).key = s.key := rfl
@[simp] theorem answered_state (s : State) (rest : List Event) : (answered s rest).state = s.state := rfl
@[simp] theorem answered_rk (s : State) (rest : List Event) : (answered s rest).rk = s.rk := rfl
@[simp] theorem answered_gfResult (s : State) (rest : List Event) : (answered s rest).gfResult = s.gfResult := rfl
@[simp] theorem answered_status (s : State) (rest : List Event) : (answered s rest).status = s.status := rfl
@[simp] theorem answered_pending (s : State) (rest : List Event) : (answered s rest).pending = s.pending := rfl
@[simp] theorem answered_draws (s : State) (rest : List Event) : (answered s rest).draws = s.draws := rfl
@[simp] theorem answered_events (s : State) (rest : List Event) : (answered s rest).events = rest := rfl
@[simp] theorem answered_responses (s : State) (rest : List Event) :
    (answered s rest).responses = .writeDone :: s.responses := rfl

/-- The next event is the legal write of `v` to the register `r`, and `rest` comes after it. -/
def WriteComes (s : State) (r : Reg) (v : Word) (rest : List Event) : Prop :=
  ∃ off, s.events = .access { off := off, size := 4, kind := .write v } :: rest ∧ off.toNat % 4 = 0 ∧ regAt off = r

/-- Every way in which a step answers a next state. -/
inductive Moves (s : State) : State → Prop where
  | rests (turn : coreTurn s = true) (idle : s.status.busy = false) : Moves s (s.setEvents s.events.tail)
  | completes {i u} (turn : coreTurn s = true) (busy : s.status.busy = true) (pending : s.pending = some i)
      (effect : effectOf i (s.setEvents s.events.tail) = some u) : Moves s u.retire
  | resets {rest} (event : s.events = .reset :: rest) : Moves s (s.setEvents rest).resetEvent
  | badAccess {a rest} (event : s.events = .access a :: rest) (bad : a.legal = false) :
      Moves s (accessError a (s.setEvents rest))
  | reads {off rest} (event : s.events = .access { off := off, size := 4, kind := .read } :: rest)
      (aligned : off.toNat % 4 = 0) : Moves s ((s.setEvents rest).answerRead (regAt off))
  | turnedAway {r v rest} (event : WriteComes s r v rest) (busy : s.status.busy = true) :
      Moves s ((answered s rest).latchError .busyViolation)
  | dropped {v rest} (event : WriteComes s .cmd v rest) (idle : s.status.busy = false) (err : s.status.err = true) :
      Moves s (answered s rest)
  | illegal {v rest why} (event : WriteComes s .cmd v rest) (idle : s.status.busy = false) (err : s.status.err = false)
      (word : decode v = .illegal why) : Moves s ((answered s rest).latchError .illegalCommand)
  | checkFails {v rest i e} (event : WriteComes s .cmd v rest) (idle : s.status.busy = false) (err : s.status.err = false)
      (word : decode v = .command i) (check : firstError (checksOf i (answered s rest)) = some e) :
      Moves s ((answered s rest).latchError e)
  | accepts {v rest i} (event : WriteComes s .cmd v rest) (idle : s.status.busy = false) (err : s.status.err = false)
      (word : decode v = .command i) (check : firstError (checksOf i (answered s rest)) = none) :
      Moves s ((answered s rest).accept i)
  | writesStatus {v rest} (event : WriteComes s .status v rest) : Moves s ((answered s rest).writeStatus v)
  | writesKey {j v rest} (event : WriteComes s (.key j) v rest) (idle : s.status.busy = false) :
      Moves s ((answered s rest).writeKey j v)
  | writesState {c v rest} (event : WriteComes s (.state c) v rest) (idle : s.status.busy = false) :
      Moves s ((answered s rest).writeState c v)
  | ignored {r v rest} (event : WriteComes s r v rest) : Moves s (answered s rest)

theorem coreStep_moves {s t : State} (turn : coreTurn s = true) (h : coreStep (s.setEvents s.events.tail) = .next t) :
    Moves s t := by
  unfold coreStep at h
  split at h
  · rename_i hb
    split at h
    · rename_i i hp
      rcases exec_next h with ⟨_, _, u, hu, rfl⟩ | ⟨hb', _⟩ | ⟨hb', _⟩ | ⟨hb', _⟩
      · exact .completes turn hb hp hu
      all_goals simp_all
    · cases h
  · rename_i hb
    injection h with h
    subst h
    exact .rests turn (by simpa using hb)

theorem issue_moves {s t : State} {v : Word} {rest : List Event} (event : WriteComes s .cmd v rest)
    (h : issue v (answered s rest) = .next t) : Moves s t := by
  unfold issue at h
  split at h
  · rename_i hb; injection h with h; subst h; exact .turnedAway event hb
  · rename_i hb
    have hb : s.status.busy = false := by simpa using hb
    split at h
    · rename_i he; injection h with h; subst h; exact .dropped event hb he
    · rename_i he
      have he : s.status.err = false := by simpa using he
      split at h
      · rename_i hd; injection h with h; subst h; exact .illegal event hb he hd
      · rename_i i hd
        rcases exec_next h with ⟨hb', _⟩ | ⟨_, he', _⟩ | ⟨_, _, e, hc, rfl⟩ | ⟨_, _, hc, rfl⟩
        · simp_all [answered]
        · simp_all [answered]
        · exact .checkFails event hb he hd hc
        · exact .accepts event hb he hd hc

theorem writeReg_moves {s t : State} {r : Reg} {v : Word} {rest : List Event} (event : WriteComes s r v rest)
    (h : writeReg r v (answered s rest) = .next t) : Moves s t := by
  cases r with
  | cmd => exact issue_moves event h
  | status => injection h with h; subst h; exact .writesStatus event
  | gfResult => injection h with h; subst h; exact .ignored event
  | rk w => injection h with h; subst h; exact .ignored event
  | reserved => injection h with h; subst h; exact .ignored event
  | key j =>
    simp only [writeReg] at h
    split at h <;> rename_i hb <;> injection h with h <;> subst h
    · exact .turnedAway event hb
    · exact .writesKey event (by simpa using hb)
  | state c =>
    simp only [writeReg] at h
    split at h <;> rename_i hb <;> injection h with h <;> subst h
    · exact .turnedAway event hb
    · exact .writesState event (by simpa using hb)

theorem hostAccess_moves {s t : State} {a : Access} {rest : List Event} (event : s.events = .access a :: rest)
    (h : hostAccess a (s.setEvents rest) = .next t) : Moves s t := by
  unfold hostAccess at h
  split at h
  · rename_i hl
    obtain ⟨off, size, kind⟩ := a
    have hl : size = 4 ∧ off.toNat % 4 = 0 := by simpa [Access.legal] using hl
    obtain ⟨rfl, ha⟩ := hl
    cases kind with
    | read => injection h with h; subst h; exact .reads event ha
    | write v => exact writeReg_moves ⟨off, event, ha, rfl⟩ h
  · rename_i hl
    injection h with h
    subst h
    exact .badAccess event (by simpa using hl)

/-- Everything a step can do when it answers a next state. -/
theorem step_moves {s t : State} (h : step s = .next t) : Moves s t := by
  unfold step at h
  split at h
  · rename_i he
    refine coreStep_moves (by simp [coreTurn, he]) ?_
    have : s.setEvents s.events.tail = s := by rw [he]; cases s; simp_all [State.setEvents]
    rw [this]; exact h
  · rename_i e rest he
    cases e with
    | access a => exact hostAccess_moves he h
    | reset => injection h with h; subst h; exact .resets he
    | complete => exact coreStep_moves (by simp [coreTurn, he]) (by rw [he]; exact h)

end Sys2Proof.Machine
end

