-- ==== Sys2Proof/Tests/Slice0.lean ====
section
/-! SUPPORT. The model's own tests, and a witness for every statement that has hypotheses. Expected values come from
95_test_vectors.md (the section is named beside each test) or from the encodings of 30_encoding.md R83. -/

namespace Sys2Proof.Tests

open Sys2Proof.Machine

/-! ## Helpers -/

/-- The next state, if there is one. -/
def nextOf : Host.Outcome State Fault Refusal → Option State
  | .next t => some t
  | .fault _ => none
  | .refused _ => none

/-- STATUS after one step in which the host writes the word to CMD. -/
def statusAfterWord (s : State) (w : Nat) : Option Word := (nextOf (step (s.withFetchWord 32 w))).map (·.status.toWord)

/-- PENDING after one step in which the host writes the word to CMD. -/
def pendingAfterWord (s : State) (w : Nat) : Option Instr := (nextOf (step (s.withFetchWord 32 w))).bind (·.pending)

/-- The state after the completion step of `i`, in flight in `s`. -/
def completion (i : Instr) (s : State) : Option State := nextOf (step (inFlight i s))

/-- GF_RESULT after the completion step of `i` from reset. -/
def byteResult (i : Instr) : Option Byte := (completion i State.reset).map (·.gfResult)

/-- STATE after the completion step of `i`, with `b` in STATE. -/
def blockResult (i : Instr) (s : State) (b : Block) : Option Block := (completion i { s with state := b }).map (·.state)

/-- The key of section 1, S1. -/
def katKey : Block := ⟨0x2b7e1516, 0x28aed2a6, 0xabf71588, 0x09cf4f3c⟩

/-- The plaintext of section 1, S1. -/
def katBlock : Block := ⟨0x3243f6a8, 0x885a308d, 0x313198a2, 0xe0370734⟩

/-- KEY and STATE written with the S1 values: STATUS = 0x0000FF00. -/
def loaded : State :=
  { State.reset with
    key := katKey, state := katBlock, status := { Status.reset with keyValid := 0xF, stateValid := 0xF } }

/-- Then EXPAND_KEY has run: STATUS = 0x0001FF00. -/
def expanded : State :=
  { loaded with rk := expandKey katKey, status := { loaded.status with rkValid := true } }

/-- Every check passes, and the round keys are 44 zero words (cheap to evaluate; no run reaches it). -/
def zeroKeys : State := { loaded with status := { loaded.status with rkValid := true } }

/-- `s` with one event to come. -/
def expecting (e : Event) (s : State) : State := s.setEvents [e]

/-- A legal read at an offset. -/
def readAt (off : Byte) : Event := .access { off := off, size := 4, kind := .read }

/-- A legal write at an offset. -/
def writeAt (off : Byte) (v : Word) : Event := .access { off := off, size := 4, kind := .write v }

/-- The answer of the bus to one access. -/
def answerOf (s : State) (e : Event) : Option Response := (nextOf (step (expecting e s))).bind (·.responses.head?)

/-- STATUS after one access. -/
def statusAfter (s : State) (e : Event) : Option Word := (nextOf (step (expecting e s))).map (·.status.toWord)

/-! ## Well-formedness: an ill-formed term for each check -/

theorem test_wellFormed_refuses_rcon_zero : (Instr.gfRcon 0).wellFormed = false := by decide
theorem test_wellFormed_refuses_rcon_eleven : (Instr.gfRcon 11).wellFormed = false := by decide
theorem test_wellFormed_refuses_addRoundKey_eleven : (Instr.addRoundKey 11).wellFormed = false := by decide
theorem test_wellFormed_refuses_cipherRound_eleven : (Instr.cipherRound 11).wellFormed = false := by decide
theorem test_wellFormed_takes_the_ends : (Instr.gfRcon 1).wellFormed = true ∧ (Instr.gfRcon 10).wellFormed = true ∧
    (Instr.addRoundKey 0).wellFormed = true ∧ (Instr.cipherRound 10).wellFormed = true := by decide

/-! ## Decoding: a word for every constructor, written out from R83 as OPC ++ RSV ++ A ++ B -/

theorem test_decode_control : decode 0b00000000_00000000_00000000_00000000#32 = .command .nop := by decide
theorem test_decode_gf_two_operands :
    decode 0b00000001_00000000_01010111_10000011#32 = .command (.gfAdd 0x57 0x83) ∧
    decode 0b00000011_00000000_01010011_11001010#32 = .command (.gfMul 0x53 0xCA) := by decide
theorem test_decode_gf_one_operand :
    decode 0b00000010_00000000_10101110_00000000#32 = .command (.gfXtime 0xAE) ∧
    decode 0b00000100_00000000_01010011_00000000#32 = .command (.gfInv 0x53) ∧
    decode 0b00000101_00000000_11001010_00000000#32 = .command (.gfSbox 0xCA) := by decide
theorem test_decode_rcon : decode 0b00000110_00000000_00000000_00001001#32 = .command (.gfRcon 9) := by decide
theorem test_decode_transforms :
    decode 0b00010000_00000000_00000000_00000000#32 = .command .subBytes ∧
    decode 0b00010001_00000000_00000000_00000000#32 = .command .shiftRows ∧
    decode 0b00010010_00000000_00000000_00000000#32 = .command .mixColumns ∧
    decode 0b00010011_00000000_00000000_00001010#32 = .command (.addRoundKey 10) := by decide
theorem test_decode_key_and_cipher :
    decode 0b00100000_00000000_00000000_00000000#32 = .command .expandKey ∧
    decode 0b00110000_00000000_00000000_00000111#32 = .command (.cipherRound 7) ∧
    decode 0b00110001_00000000_00000000_00000000#32 = .command .encrypt := by decide
/-- Section 2.12, and the error rows of 2.2, 2.3, 2.6, 2.7 and 2.11. -/
theorem test_decode_illegal :
    [0x07000000, 0x14000000, 0x21000000, 0x32000000, 0xFF000000].map decode =
      List.replicate 5 (.illegal .unknownOpcode) ∧
    [0x03015783, 0x13010000, 0x03010102, 0x00010000].map decode = List.replicate 4 (.illegal .reservedFieldNonzero) ∧
    [0x04005301, 0x13000100, 0x31000001, 0x02005701, 0x06000101, 0x10000001, 0x00000001].map decode =
      List.replicate 7 (.illegal .unusedFieldNonzero) := by decide
theorem test_decodeTableWord : decodeTableWord 32 0x01005783 = some (.gfAdd 0x57 0x83) ∧
    decodeTableWord 32 0x3000000B = some (.cipherRound 11) ∧ decodeTableWord 32 0x00000001 = none := by decide

/-! ## Commands. For each, one test of its issue (STATUS after the CMD write) and one of its completion -/

/-- Section 2.11. -/
theorem test_nop_issue : statusAfterWord State.reset 0x00000000 = some 0x00000001 ∧
    pendingAfterWord State.reset 0x00000000 = some .nop ∧ statusAfterWord State.reset 0x00000001 = some 0x00000012 := by decide
theorem test_nop_completion : completion .nop State.reset = some State.reset := by decide

/-- Section 2.1. -/
theorem test_gfAdd_issue : statusAfterWord State.reset 0x01005783 = some 0x00000001 ∧
    pendingAfterWord State.reset 0x01005783 = some (.gfAdd 0x57 0x83) := by decide
theorem test_gfAdd_completion : completion (.gfAdd 0x57 0x83) State.reset = some { State.reset with gfResult := 0xD4 } ∧
    byteResult (.gfAdd 0xFF 0xFF) = some 0x00 ∧ byteResult (.gfAdd 0xA5 0x5A) = some 0xFF := by decide

/-- Section 2.2. -/
theorem test_gfXtime_issue : statusAfterWord State.reset 0x02005700 = some 0x00000001 ∧
    statusAfterWord State.reset 0x02005701 = some 0x00000012 := by decide
theorem test_gfXtime_completion :
    [0x00, 0x01, 0x57, 0xAE, 0x47, 0x8E, 0x80, 0xFF, 0x7F, 0x8D, 0xC0].map (fun a => byteResult (.gfXtime a)) =
    [0x00, 0x02, 0xAE, 0x47, 0x8E, 0x07, 0x1B, 0xE5, 0xFE, 0x01, 0x9B].map some := by decide

/-- Section 2.3. -/
theorem test_gfMul_issue : statusAfterWord State.reset 0x03005783 = some 0x00000001 ∧
    statusAfterWord State.reset 0x03010102 = some 0x00000012 := by decide
theorem test_gfMul_completion :
    [(0x57, 0x83), (0x57, 0x13), (0x57, 0x80), (0xFF, 0x00), (0x01, 0xB7), (0x02, 0x87), (0xFF, 0xFF), (0x80, 0x80)].map
      (fun p => byteResult (.gfMul p.1 p.2)) = [0xC1, 0xFE, 0x38, 0x00, 0xB7, 0x15, 0x13, 0x9A].map some := by
  decide +kernel

/-- Section 2.4. -/
theorem test_gfInv_issue : statusAfterWord State.reset 0x04005300 = some 0x00000001 ∧
    statusAfterWord State.reset 0x04005301 = some 0x00000012 := by decide
theorem test_gfInv_completion :
    [0x00, 0x01, 0x02, 0x03, 0x53, 0xCA, 0x80, 0xFF, 0x1B].map (fun a => byteResult (.gfInv a)) =
    [0x00, 0x01, 0x8D, 0xF6, 0xCA, 0x53, 0x83, 0x1C, 0xCC].map some := by decide +kernel

/-- Section 2.5. -/
theorem test_gfSbox_issue : statusAfterWord State.reset 0x05005300 = some 0x00000001 ∧
    pendingAfterWord State.reset 0x05005300 = some (.gfSbox 0x53) := by decide
theorem test_gfSbox_completion :
    [0x00, 0x01, 0x10, 0x52, 0x53, 0x63, 0x7C, 0x8D, 0xFF].map (fun a => byteResult (.gfSbox a)) =
    [0x63, 0x7C, 0xCA, 0x00, 0xED, 0xFB, 0x10, 0x5D, 0x16].map some := by decide +kernel

/-- Section 2.6. -/
theorem test_gfRcon_issue : statusAfterWord State.reset 0x0600000A = some 0x00000001 ∧
    statusAfterWord State.reset 0x06000000 = some 0x00000022 ∧ statusAfterWord State.reset 0x0600000B = some 0x00000022 ∧
    statusAfterWord State.reset 0x06000101 = some 0x00000012 := by decide
theorem test_gfRcon_completion : [1, 2, 8, 9, 10].map (fun i => byteResult (.gfRcon i)) =
    [0x01, 0x02, 0x80, 0x1B, 0x36].map some := by decide

/-- Section 2.7. -/
theorem test_subBytes_issue : statusAfterWord loaded 0x10000000 = some 0x0000FF01 ∧
    statusAfterWord State.reset 0x10000000 = some 0x00000042 ∧ statusAfterWord loaded 0x10000001 = some 0x0000FF12 := by decide
theorem test_subBytes_completion :
    blockResult .subBytes loaded ⟨0x193de3be, 0xa0f4e22b, 0x9ac68d2a, 0xe9f84808⟩ =
      some ⟨0xd42711ae, 0xe0bf98f1, 0xb8b45de5, 0x1e415230⟩ := by decide +kernel
theorem test_shiftRows_issue : statusAfterWord loaded 0x11000000 = some 0x0000FF01 ∧
    statusAfterWord State.reset 0x11000000 = some 0x00000042 := by decide
theorem test_shiftRows_completion :
    blockResult .shiftRows loaded ⟨0x00010203, 0x04050607, 0x08090a0b, 0x0c0d0e0f⟩ =
      some ⟨0x00050a0f, 0x04090e03, 0x080d0207, 0x0c01060b⟩ := by decide +kernel
theorem test_mixColumns_issue : statusAfterWord loaded 0x12000000 = some 0x0000FF01 ∧
    statusAfterWord State.reset 0x12000000 = some 0x00000042 := by decide
theorem test_mixColumns_completion :
    blockResult .mixColumns loaded ⟨0xd4bf5d30, 0xe0b452ae, 0xb84111f1, 0x1e2798e5⟩ =
      some ⟨0x046681e5, 0xe0cb199a, 0x48f8d37a, 0x2806264c⟩ ∧
    blockResult .mixColumns loaded ⟨0xdb135345, 0xf20a225c, 0xd4d4d4d5, 0x2d26314c⟩ =
      some ⟨0x8e4da1bc, 0x9fdc589d, 0xd5d5d7d6, 0x4d7ebdf8⟩ := by decide +kernel
theorem test_addRoundKey_issue : statusAfterWord expanded 0x1300000A = some 0x0001FF01 ∧
    statusAfterWord { State.reset with status := { Status.reset with stateValid := 0xF } } 0x13000000 = some 0x0000F052 ∧
    statusAfterWord expanded 0x1300000B = some 0x0001FF22 ∧ statusAfterWord loaded 0x13000000 = some 0x0000FF52 := by decide
theorem test_addRoundKey_completion :
    blockResult (.addRoundKey 1) expanded ⟨0x046681e5, 0xe0cb199a, 0x48f8d37a, 0x2806264c⟩ =
      some ⟨0xa49c7ff2, 0x689f352b, 0x6b5bea43, 0x026a5049⟩ := by decide +kernel

/-- Section 2.8. -/
theorem test_expandKey_issue : statusAfterWord loaded 0x20000000 = some 0x0000FF01 ∧
    statusAfterWord { State.reset with status := { Status.reset with keyValid := 0x7 } } 0x20000000 = some 0x00000732 := by
  decide
theorem test_expandKey_completion : (completion .expandKey loaded).map (fun t => (t.status.toWord, t.rk[0], t.rk[4], t.rk[43])) =
    some (0x0001FF00, 0x2b7e1516, 0xa0fafe17, 0xb6630ca6) := by decide +kernel

/-- Section 2.9. -/
theorem test_cipherRound_issue : statusAfterWord expanded 0x30000000 = some 0x0001FF01 ∧
    statusAfterWord expanded 0x3000000B = some 0x0001FF22 ∧ statusAfterWord loaded 0x30000000 = some 0x0000FF52 := by decide
theorem test_cipherRound_completion :
    blockResult (.cipherRound 1) expanded ⟨0x193de3be, 0xa0f4e22b, 0x9ac68d2a, 0xe9f84808⟩ =
      some ⟨0xa49c7ff2, 0x689f352b, 0x6b5bea43, 0x026a5049⟩ ∧
    blockResult (.cipherRound 10) expanded ⟨0xeb40f21e, 0x592e3884, 0x8ba113e7, 0x1bc342d2⟩ =
      some ⟨0x3925841d, 0x02dc09fb, 0xdc118597, 0x196a0b32⟩ := by decide +kernel

/-- Section 2.10. -/
theorem test_encrypt_issue : statusAfterWord loaded 0x31000000 = some 0x0000FF01 ∧
    statusAfterWord State.reset 0x31000000 = some 0x00000032 ∧
    statusAfterWord { State.reset with status := { Status.reset with keyValid := 0xF } } 0x31000000 = some 0x00000F42 := by
  decide
/-- The known-answer test S1. -/
theorem test_encrypt_completion : (completion .encrypt loaded).map (fun t => (t.status.toWord, t.state, t.rk[40])) =
    some (0x0001FF00, ⟨0x3925841d, 0x02dc09fb, 0xdc118597, 0x196a0b32⟩, 0xd014f9a8) := by decide +kernel

/-! ## The register interface (section 2.13), errors and reset -/

theorem test_reads : answerOf State.reset (readAt 0x04) = some (.readData 0) ∧
    answerOf expanded (readAt 0x04) = some (.readData 0x0001FF00) ∧ answerOf expanded (readAt 0x00) = some (.readData 0) ∧
    answerOf loaded (readAt 0x10) = some (.readData 0x2b7e1516) ∧ answerOf loaded (readAt 0x2C) = some (.readData 0xe0370734) ∧
    answerOf loaded (readAt 0x0C) = some (.readData 0) := by decide
theorem test_key_write_clears_rkValid : statusAfter expanded (writeAt 0x10 5) = some 0x0000FF00 ∧
    (nextOf (step (expecting (writeAt 0x10 5) expanded))).map (·.rk) = some expanded.rk := ⟨by decide, rfl⟩
theorem test_narrow_write_is_access_error :
    statusAfter expanded (.access { off := 0x20, size := 1, kind := .write 5 }) = some 0x0001FF72 ∧
    (nextOf (step (expecting (.access { off := 0x20, size := 1, kind := .write 5 }) loaded))).map (·.state) = some katBlock := by
  decide
theorem test_unaligned_read_is_access_error :
    answerOf loaded (.access { off := 0x21, size := 4, kind := .read }) = some (.readError 4 Config.busErrResponse) ∧
    statusAfter loaded (.access { off := 0x21, size := 4, kind := .read }) = some 0x0000FF72 := ⟨rfl, by decide⟩
theorem test_ignored_writes : statusAfter loaded (writeAt 0x0C 5) = some 0x0000FF00 ∧
    (nextOf (step (expecting (writeAt 0x40 5) loaded))).map (·.rk[0]) = some 0 := by decide
theorem test_status_write : statusAfter (failed 7 loaded) (writeAt 0x04 2) = some 0x0000FF00 ∧
    statusAfter (failed 7 loaded) (writeAt 0x04 0xFFFFFFFD) = some 0x0000FF72 := by decide
theorem test_busy_write_is_dropped : statusAfter (inFlight .encrypt loaded) (writeAt 0x10 5) = some 0x0000FF63 ∧
    (nextOf (step (expecting (writeAt 0x10 5) (inFlight .encrypt loaded)))).map (·.key) = some katKey := by decide
theorem test_busy_read_is_any_value :
    answerOf (inFlight .encrypt loaded) (readAt 0x20) = some (.readData (Config.anyU32 0)) := rfl
/-- Program P3: a command written while ERR = 1 is dropped, and the first code stays. -/
theorem test_first_error_is_kept : statusAfterWord (failed 5 loaded) 0x20000000 = some 0x0000FF52 ∧
    statusAfter (failed 5 loaded) (.access { off := 0x20, size := 2, kind := .read }) = some 0x0000FF52 := by decide
theorem test_reset_event : nextOf (step (expecting .reset (inFlight .encrypt loaded))) = some State.reset := by decide
/-- From State.reset with nothing placed the block stays as it is. -/
theorem test_quiet_host_idles : nextOf (step State.reset) = some State.reset := by decide

/-! ## Witnesses: for every statement with hypotheses, values that meet them -/

theorem idle_reset : Idle State.reset := ⟨rfl, rfl⟩
theorem idle_loaded : Idle loaded := ⟨rfl, rfl⟩
theorem idle_expanded : Idle expanded := ⟨rfl, rfl⟩

/-- Every command can be in flight. -/
theorem witness_in_flight (i : Instr) : (inFlight i expanded).status.busy = true ∧ (inFlight i expanded).pending = some i :=
  ⟨rfl, rfl⟩

theorem witness_EveryCommandHasOneWord : decode 0x130000FF = .command (.addRoundKey 0xFF) := by decide

/-- One word for each way of being illegal. -/
theorem witness_illegal_words : IsIllegalCommand 0x00010000 ∧ IsIllegalCommand 0x07000000 ∧ IsIllegalCommand 0x06000101 ∧
    IsIllegalCommand 0x02005701 := ⟨⟨_, rfl⟩, ⟨_, rfl⟩, ⟨_, rfl⟩, ⟨_, rfl⟩⟩

theorem witness_IllegalWordsLatchIllegalCommand : Idle State.reset ∧ IsIllegalCommand 0xFF000000 := ⟨idle_reset, _, rfl⟩

theorem witness_CommandWriteStepRunsDecodedCommand :
    (expecting (writeAt 0x00 0x03005783) loaded).events = .access { off := 0x00, size := 4, kind := .write 0x03005783 } :: [] ∧
    Idle (expecting (writeAt 0x00 0x03005783) loaded) ∧ decode 0x03005783 = .command (.gfMul 0x57 0x83) :=
  ⟨rfl, ⟨rfl, rfl⟩, by decide⟩

theorem witness_CompletionStepRunsPending_event :
    (expecting .complete (inFlight .nop loaded)).events = .complete :: [] ∧
    (expecting .complete (inFlight .nop loaded)).status.busy = true ∧
    (expecting .complete (inFlight .nop loaded)).pending = some .nop := by decide
theorem witness_CompletionStepRunsPending_quiet : (inFlight .nop loaded).events = [] ∧
    (inFlight .nop loaded).status.busy = true ∧ (inFlight .nop loaded).pending = some .nop := by decide
theorem witness_CompletionStepRunsPending_idle_event : (expecting .complete loaded).events = .complete :: [] ∧
    (expecting .complete loaded).status.busy = false := by decide
theorem witness_CompletionStepRunsPending_idle : loaded.events = [] ∧ loaded.status.busy = false := by decide
theorem witness_CompletionStepRunsPending_done : coreTurn (inFlight .nop loaded) = true ∧
    (inFlight .nop loaded).status.busy = true ∧ step (inFlight .nop loaded) = .next loaded := ⟨rfl, rfl, rfl⟩

theorem witness_IssueChecks_busy : (inFlight .encrypt loaded).status.busy = true := rfl
theorem witness_IssueChecks_busy_and_error : (failed 1 (inFlight .encrypt loaded)).status.busy = true ∧
    (failed 1 (inFlight .encrypt loaded)).status.err = true := by decide
theorem witness_IssueChecks_error : (failed 1 loaded).status.busy = false ∧ (failed 1 loaded).status.err = true := by decide
theorem witness_IssueChecks_word : Idle loaded ∧ IsIllegalCommand 0x14000000 := ⟨idle_loaded, _, rfl⟩
theorem witness_IssueChecks_operand : Idle loaded ∧ decode 0x0600000B = .command (.gfRcon 11) ∧
    (Instr.gfRcon 11).wellFormed = false := ⟨idle_loaded, by decide, by decide⟩
theorem witness_IssueChecks_key : Idle State.reset ∧ decode 0x31000000 = .command .encrypt ∧
    Instr.encrypt.wellFormed = true ∧ readsKey .encrypt = true ∧ State.reset.status.keyValid ≠ 0xF :=
  ⟨idle_reset, by decide, rfl, rfl, by decide⟩
theorem witness_IssueChecks_state : Idle State.reset ∧ decode 0x1300000A = .command (.addRoundKey 10) ∧
    (Instr.addRoundKey 10).wellFormed = true ∧ (readsKey (.addRoundKey 10) = true → State.reset.status.keyValid = 0xF) ∧
    readsState (.addRoundKey 10) = true ∧ State.reset.status.stateValid ≠ 0xF :=
  ⟨idle_reset, by decide, by decide, by decide, rfl, by decide⟩
theorem witness_IssueChecks_roundKeys : Idle loaded ∧ decode 0x3000000A = .command (.cipherRound 10) ∧
    (Instr.cipherRound 10).wellFormed = true ∧ (readsKey (.cipherRound 10) = true → loaded.status.keyValid = 0xF) ∧
    (readsState (.cipherRound 10) = true → loaded.status.stateValid = 0xF) ∧ readsRoundKeys (.cipherRound 10) = true ∧
    loaded.status.rkValid = false := ⟨idle_loaded, by decide, by decide, by decide, by decide, rfl, rfl⟩
/-- In one state every well-formed command may run; also the premise of EveryCommandThatMayRunCompletes. -/
theorem witness_MayRun (i : Instr) (h : i.wellFormed = true) : Idle expanded ∧ MayRun i expanded :=
  ⟨idle_expanded, ⟨h, fun _ => rfl, fun _ => rfl, fun _ => rfl⟩⟩

/-- The index operands at the ends of their ranges. -/
theorem witness_index_ends : ((0 : Byte).toNat = 0 ∨ 10 < (0 : Byte).toNat) ∧ ((11 : Byte).toNat = 0 ∨ 10 < (11 : Byte).toNat) ∧
    10 < (0xFF : Byte).toNat ∧ (1 ≤ (1 : Byte).toNat ∧ (1 : Byte).toNat ≤ 10) ∧ (1 ≤ (10 : Byte).toNat ∧ (10 : Byte).toNat ≤ 10) ∧
    (0 : Byte).toNat ≤ 10 ∧ (10 : Byte).toNat < 11 := by decide
theorem witness_IndexOutsideRangeIsIllegalOperand : Idle State.reset ∧ 10 < (11 : Byte).toNat := ⟨idle_reset, by decide⟩

theorem witness_CommandsAreDropped_step : (expecting (writeAt 0x00 0x20000000) (failed 5 loaded)).events =
      .access { off := 0x00, size := 4, kind := .write 0x20000000 } :: [] ∧
    (expecting (writeAt 0x00 0x20000000) (failed 5 loaded)).status.busy = false ∧
    (expecting (writeAt 0x00 0x20000000) (failed 5 loaded)).status.err = true := by decide
theorem witness_CommandsAreDropped_in_flight : (inFlight .nop loaded).status.busy = true ∧
    exec .nop (inFlight .nop loaded) = .next loaded := ⟨rfl, rfl⟩

/-- The block commands: a state in which each check fails, and one in which all pass. -/
theorem witness_block_checks : (Idle State.reset ∧ State.reset.status.keyValid ≠ 0xF ∧ State.reset.status.stateValid ≠ 0xF) ∧
    (Idle { loaded with status := { loaded.status with stateValid := 0xE } } ∧ loaded.status.keyValid = 0xF ∧ (0xE : BitVec 4) ≠ 0xF) ∧
    (Idle loaded ∧ loaded.status.stateValid = 0xF ∧ loaded.status.rkValid = false) ∧
    (Idle expanded ∧ expanded.status.stateValid = 0xF ∧ expanded.status.rkValid = true) :=
  ⟨⟨idle_reset, by decide, by decide⟩, ⟨⟨rfl, rfl⟩, rfl, by decide⟩, ⟨idle_loaded, rfl, rfl⟩, ⟨idle_expanded, rfl, rfl⟩⟩

/-- Words with an opcode and an unused field set, as the command statements take them. -/
theorem witness_unused_fields : (opcOf 0x00000001 = 0 ∧ (0x00000001 : Word) ≠ 0) ∧
    (opcOf 0x10000001 = 0x10 ∧ (0x10000001 : Word) ≠ 0x10000000) ∧ (opcOf 0x11000100 = 0x11 ∧ (0x11000100 : Word) ≠ 0x11000000) ∧
    (opcOf 0x12010000 = 0x12 ∧ (0x12010000 : Word) ≠ 0x12000000) ∧ (opcOf 0x20000001 = 0x20 ∧ (0x20000001 : Word) ≠ 0x20000000) ∧
    (opcOf 0x31000001 = 0x31 ∧ (0x31000001 : Word) ≠ 0x31000000) ∧ (0x01 : Byte) ≠ 0 := by decide

/-- An EXPAND_KEY run again, and a KEY write after it. -/
theorem witness_ExpandKey_again : (inFlight .expandKey expanded).status.busy = true ∧
    (inFlight .expandKey expanded).pending = some .expandKey ∧ (inFlight .expandKey expanded).status.rkValid = true ∧
    (inFlight .expandKey expanded).rk = expandKey (inFlight .expandKey expanded).key ∧ expanded.status.busy = false :=
  ⟨rfl, rfl, rfl, rfl, rfl⟩
/-- The premises of CommonChecksApply. -/
theorem witness_CommonChecks : (inFlight .nop loaded).status.busy = true ∧ (failed 7 loaded).status.busy = false ∧
    (failed 7 loaded).status.err = true := by decide
theorem witness_SubBytes_zero_byte : zeroBlock.cell 3 0 = 0 := by decide
theorem witness_MixColumns_columns : (⟨0x01000000, 0xC6C6C6C6, 0xdb135345, 0⟩ : Block).word 1 = wordOf 0xC6 0xC6 0xC6 0xC6 ∧
    (⟨0x01000000, 0xC6C6C6C6, 0xdb135345, 0⟩ : Block).word 0 = 0x01000000 ∧
    (⟨0x01000000, 0xC6C6C6C6, 0xdb135345, 0⟩ : Block).word 2 = 0xdb135345 ∧ katBlock.word 3 = (⟨0, 0, 0, 0xe0370734⟩ : Block).word 3 := by
  decide
theorem witness_CipherRound_index : 1 ≤ (1 : Fin 11).val ∧ (9 : Fin 11).val ≤ 9 := by decide

theorem witness_CommandsLeaveOtherRegistersUnchanged : loaded.status.busy = false ∧
    exec (.gfAdd 1 2) loaded = .next (inFlight (.gfAdd 1 2) loaded) ∧ (inFlight (.gfAdd 1 2) loaded).status.busy = true ∧
    exec (.gfAdd 1 2) (inFlight (.gfAdd 1 2) loaded) = .next { loaded with gfResult := 3 } ∧
    mayChange (.gfAdd 1 2) (.key 3) = false ∧ writesRoundKeys (.gfAdd 1 2) = false := ⟨rfl, rfl, rfl, rfl, rfl, rfl⟩

theorem witness_IllegalAccess_width : ({ off := 0x20, size := 1, kind := .write 5 } : Access).size ≠ 4 ∧
    ({ off := 0x20, size := 1, kind := .write 5 } : Access).kind = .write 5 := by decide
theorem witness_IllegalAccess_alignment : ({ off := 0x21, size := 4, kind := .read } : Access).off.toNat % 4 ≠ 0 ∧
    ({ off := 0x21, size := 4, kind := .read } : Access).kind = .read := by decide

/-- Each clause of LegalReadsReturnTheRegister and LegalWritesChangeTheRegister, at the ends of its range of offsets. -/
theorem witness_offsets_key : (0x10 : Byte).toNat = 0x10 + 4 * (0 : Fin 4).val ∧ (0x1C : Byte).toNat = 0x10 + 4 * (3 : Fin 4).val := by
  decide
theorem witness_offsets_state : (0x20 : Byte).toNat = 0x20 + 4 * (0 : Fin 4).val ∧ (0x2C : Byte).toNat = 0x20 + 4 * (3 : Fin 4).val := by
  decide
theorem witness_offsets_rk : (0x40 : Byte).toNat = 0x40 + 4 * (0 : Fin 44).val ∧ (0xEC : Byte).toNat = 0x40 + 4 * (43 : Fin 44).val := by
  decide
theorem witness_offsets_data : ∀ off ∈ ([0x10, 0x2C, 0x40, 0xEC] : List Byte), off.toNat % 4 = 0 ∧
    (0x10 ≤ off.toNat ∧ off.toNat < 0x30 ∨ 0x40 ≤ off.toNat ∧ off.toNat < 0xF0) := by decide
theorem witness_offsets_reserved : ∀ off ∈ ([0x30, 0x3C, 0xF0, 0xFC] : List Byte), off.toNat % 4 = 0 ∧
    (0x30 ≤ off.toNat ∧ off.toNat < 0x40 ∨ 0xF0 ≤ off.toNat) := by decide
theorem witness_LegalReads (off : Byte) : (expecting (readAt off) loaded).events = .access { off := off, size := 4, kind := .read } :: [] ∧
    (expecting (readAt off) loaded).status.busy = false ∧ (expecting (readAt off) (inFlight .nop loaded)).status.busy = true :=
  ⟨rfl, rfl, rfl⟩
theorem witness_LegalWrites (off : Byte) (v : Word) :
    (expecting (writeAt off v) loaded).events = .access { off := off, size := 4, kind := .write v } :: [] ∧
    (expecting (writeAt off v) loaded).status.busy = false ∧ (expecting (writeAt off v) (inFlight .nop loaded)).status.busy = true :=
  ⟨rfl, rfl, rfl⟩
theorem witness_LegalWrites_status : (0x00000002 : Word).getLsbD 1 = true ∧ (0xFFFFFFFD : Word).getLsbD 1 = false := by decide
theorem witness_LegalWrites_ignored : ∀ off ∈ ([0x30, 0x40, 0xEC, 0xFC] : List Byte), off.toNat % 4 = 0 ∧ 0x30 ≤ off.toNat := by decide

theorem witness_RegisterMap : (0xEC : Byte).toNat % 4 = 0 ∧ regAt 0xEC = regAt 0xEC ∧ regAt 0xEC ≠ .reserved := by decide
theorem witness_Window : (Config.base + 256 < Config.base ∨ Config.base + 256 ≤ Config.base + 256) := .inr (Nat.le_refl _)
theorem witness_FirstErrorIsKept : (failed 1 loaded).status.err = true ∧ loaded.status.err = false := by decide
theorem witness_ResetEvent : (expecting .reset (inFlight .encrypt loaded)).events = .reset :: [] := rfl

/-! ### Witnesses of the statements about what may change each register -/

/-- The last word of KEY is written. -/
theorem witness_OnlyHostWritesChangeKey : ∃ t, step (expecting (writeAt 0x1C 5) expanded) = .next t ∧
    t.key ≠ (expecting (writeAt 0x1C 5) expanded).key := ⟨_, rfl, by decide⟩
theorem witness_KeyChanges_by_reset : ∃ t, step (expecting .reset loaded) = .next t ∧ t.key ≠ (expecting .reset loaded).key :=
  ⟨_, rfl, by decide⟩
theorem witness_OnlyWritesAndStateCommands_write : ∃ t, step (expecting (writeAt 0x2C 5) loaded) = .next t ∧
    t.state ≠ (expecting (writeAt 0x2C 5) loaded).state := ⟨_, rfl, by decide⟩
theorem witness_OnlyWritesAndStateCommands_command : ∃ t, step (inFlight .shiftRows loaded) = .next t ∧
    t.state ≠ (inFlight .shiftRows loaded).state := ⟨_, rfl, by decide +kernel⟩
theorem witness_OnlyKeyExpansion : ∃ t, step (inFlight .expandKey loaded) = .next t ∧ t.rk ≠ (inFlight .expandKey loaded).rk :=
  ⟨_, rfl, by decide +kernel⟩
theorem witness_OnlyByteCommands : ∃ t, step (inFlight (.gfAdd 1 2) loaded) = .next t ∧
    t.gfResult ≠ (inFlight (.gfAdd 1 2) loaded).gfResult := ⟨_, rfl, by decide⟩
theorem witness_OnlyResetClearsValidBits : (∃ t, step (expecting (writeAt 0x10 5) loaded) = .next t) ∧
    ¬ resetsNext (expecting (writeAt 0x10 5) loaded) ∧ loaded.status.keyValid.getLsbD 3 = true ∧
    loaded.status.stateValid.getLsbD 0 = true :=
  ⟨⟨_, rfl⟩, fun h => (by obtain ⟨rest, h⟩ := h; cases h), by decide, by decide⟩
theorem witness_RoundKeysValid_set : ∃ t, step (inFlight .expandKey loaded) = .next t ∧
    (inFlight .expandKey loaded).status.rkValid = false ∧ t.status.rkValid = true := ⟨_, rfl, rfl, rfl⟩
theorem witness_RoundKeysValid_cleared : ∃ t, step (expecting (writeAt 0x1C 5) expanded) = .next t ∧
    (expecting (writeAt 0x1C 5) expanded).status.rkValid = true ∧ t.status.rkValid = false := ⟨_, rfl, rfl, rfl⟩
theorem witness_ErrorIsLeft : ∃ t, step (expecting (writeAt 0x04 2) (failed 7 loaded)) = .next t ∧
    (expecting (writeAt 0x04 2) (failed 7 loaded)).status.err = true ∧ t.status.err = false := ⟨_, rfl, rfl, rfl⟩
theorem witness_ErrorStays : ∃ t, step (expecting (writeAt 0x04 0xFFFFFFFD) (failed 7 loaded)) = .next t ∧
    (expecting (writeAt 0x04 0xFFFFFFFD) (failed 7 loaded)).status.err = true ∧ t.status.err = true := ⟨_, rfl, rfl, rfl⟩
theorem witness_BusyIsRaised : ∃ t, step (expecting (writeAt 0x00 0) loaded) = .next t ∧
    (expecting (writeAt 0x00 0) loaded).status.busy = false ∧ t.status.busy = true := ⟨_, rfl, rfl, rfl⟩
theorem witness_BusyIsLowered : ∃ t, step (inFlight .nop loaded) = .next t ∧ (inFlight .nop loaded).status.busy = true ∧
    t.status.busy = false := ⟨_, rfl, rfl, rfl⟩

/-! ### Witnesses of the statements about whole runs -/

/-- A state with a command in flight, round keys in RK, and no error: the invariant holds there. -/
theorem witness_Invariant : Invariant (inFlight (.cipherRound 10) expanded) where
  busy_iff_pending := rfl
  no_code_without_error := fun _ => rfl
  code_is_raised := fun h => by cases h
  round_keys_fresh := fun _ => rfl
  in_flight_checked := fun i h => by
    cases h
    exact ⟨by decide, fun _ => rfl, fun _ => rfl, fun _ => rfl⟩
/-- And one with an error latched. -/
theorem witness_Invariant_error : Invariant (failed 7 loaded) where
  busy_iff_pending := rfl
  no_code_without_error := fun h => by cases h
  code_is_raised := fun _ => by decide
  round_keys_fresh := fun h => by cases h
  in_flight_checked := fun i h => by cases h
theorem witness_EveryStepKeepsTheInvariant : ∃ t, step (inFlight (.cipherRound 10) expanded) = .next t := ⟨_, rfl⟩
theorem witness_HostCannotDisturb : (inFlight .nop loaded).status.busy = true ∧
    exec .nop (inFlight .nop loaded) = .next loaded := ⟨rfl, rfl⟩
/-- Also for RoundByRoundEqualsEncrypt and EncryptionRecipeReadsTheCiphertext. -/
theorem witness_EncryptDependsOnlyOnKeyAndState : Idle loaded ∧ Idle expanded ∧ loaded.status.keyValid = 0xF ∧
    expanded.status.keyValid = 0xF ∧ loaded.status.stateValid = 0xF ∧ expanded.status.stateValid = 0xF ∧
    loaded.key = expanded.key ∧ loaded.state = expanded.state ∧ (∃ t, runCommand .encrypt loaded = .next t) ∧
    (∃ t, runCommand .encrypt expanded = .next t) :=
  ⟨idle_loaded, idle_expanded, rfl, rfl, rfl, rfl, rfl, rfl, ⟨_, rfl⟩, ⟨_, rfl⟩⟩
theorem witness_FieldLaws : gfMul 0x00 0x57 = 0x00 ∧ (0x57 : Byte) ≠ 0 ∧ (0 < 50 ∧ 50 < 51) := by decide
theorem witness_RoundConstants : (2 ≤ 2 ∧ 2 ≤ 10) ∧ (2 ≤ 10 ∧ 10 ≤ 10) := by decide
theorem witness_KeySchedule_indices : (4 ≤ 5 ∧ 5 % 4 ≠ 0 ∧ 5 < 44) ∧ (4 ≤ 43 ∧ 43 % 4 ≠ 0 ∧ 43 < 44) ∧
    (4 ≤ 4 ∧ 4 % 4 = 0 ∧ 4 < 44) ∧ (4 ≤ 40 ∧ 40 % 4 = 0 ∧ 40 < 44) := by decide

end Sys2Proof.Tests
end

section
/-! PROOFS. The state after reset (R37). -/

namespace Sys2Proof.Machine

/-- The reset STATUS word, from STATUS fields that are each 0 (R28, R37). -/
@[simp] theorem Status.toWord_reset : Status.reset.toWord = 0 := by decide

@[simp] theorem State.reset_rk_getElem (w : Nat) (hw : w < 44) : State.reset.rk[w] = 0 :=
  Vector.getElem_replicate hw

/-- Settles O33: the 44 round keys are one replicated 0 and the STATUS word is `Status.toWord_reset`; every other value is
a field of `State.reset`. -/
theorem resetLeavesEveryRegisterZero : Obligations.ResetLeavesEveryRegisterZero := by
  have rk_zero : ∀ w : Fin 44, State.reset.rk[w.val] = 0 := fun w => State.reset_rk_getElem w.val w.isLt
  exact ⟨rfl, rfl, rk_zero, rfl, Status.toWord_reset, rfl, rfl, rfl, rfl, rfl, rfl, rfl⟩

end Sys2Proof.Machine
end

section
/-! PROOFS. Commands with an index outside its range: they decode, and their issue fails with ILLEGAL_OPERAND (R86). -/

namespace Sys2Proof

/-! ## The words of the three index commands decode at every index -/

theorem decode_packFields_gfRcon (b : Byte) : decode (packFields 0x06 0 0 b) = .command (.gfRcon b) := by
  simp [decode, decodeOnlyB]

theorem decode_packFields_addRoundKey (b : Byte) : decode (packFields 0x13 0 0 b) = .command (.addRoundKey b) := by
  simp [decode, decodeOnlyB]

theorem decode_packFields_cipherRound (b : Byte) : decode (packFields 0x30 0 0 b) = .command (.cipherRound b) := by
  simp [decode, decodeOnlyB]

/-! ## An index outside its range is ill formed -/

theorem Instr.gfRcon_wellFormed_eq_false {b : Byte} (h : b.toNat = 0 ∨ 10 < b.toNat) : (Instr.gfRcon b).wellFormed = false :=
  decide_eq_false (by omega)

theorem Instr.addRoundKey_wellFormed_eq_false {b : Byte} (h : 10 < b.toNat) : (Instr.addRoundKey b).wellFormed = false :=
  decide_eq_false (Nat.not_le.mpr h)

theorem Instr.cipherRound_wellFormed_eq_false {b : Byte} (h : 10 < b.toNat) : (Instr.cipherRound b).wellFormed = false :=
  decide_eq_false (Nat.not_le.mpr h)

end Sys2Proof

namespace Sys2Proof.Machine

/-! ## The issue of an ill-formed command -/

theorem needIndex_of_ne_none {α : Type} {idx : Option α} (h : needIndex idx ≠ none) :
    needIndex idx = some .illegalOperand := by
  cases idx with
  | none => rfl
  | some x => exact absurd rfl h

/-- The index check is the first check of each command that has one (R216 step 4), so it is the one reported. -/
theorem firstError_of_illFormed {i : Instr} (s : State) (h : i.wellFormed = false) :
    firstError (checksOf i s) = some .illegalOperand := by
  cases i with
  | gfRcon b =>
    have fails : needIndex (rconIndex b) = some .illegalOperand :=
      needIndex_of_ne_none (by simp [rconIndex_passes, h])
    simp [checksOf, fails, firstError]
  | addRoundKey b | cipherRound b =>
    have fails : needIndex (roundIndex b) = some .illegalOperand :=
      needIndex_of_ne_none (by simpa [roundIndex_passes, Instr.wellFormed] using h)
    simp [checksOf, fails, firstError]
  | nop | gfAdd | gfXtime | gfMul | gfInv | gfSbox => cases h
  | subBytes | shiftRows | mixColumns | expandKey | encrypt => cases h

/-- With no error latched before, taking an error is `failed` with its code. -/
theorem State.latchError_of_no_err {s : State} (he : s.status.err = false) (e : ErrorCode) :
    s.latchError e = failed e.code s := by
  simp only [State.latchError, Status.latch_of_no_err he, failed]

/-- In an idle block the issue of a legal word is `exec` of its command (R216 steps 1 to 3 pass). -/
theorem issue_of_idle_of_decode {v : Word} {s : State} {i : Instr} (idle : Idle s) (hd : decode v = .command i) :
    issue v s = exec i s := by
  obtain ⟨hb, he⟩ := idle
  simp [issue, hb, he, hd]

theorem issue_of_illFormed {v : Word} {s : State} {i : Instr} (idle : Idle s) (hd : decode v = .command i)
    (hw : i.wellFormed = false) : issue v s = .next (failed 2 s) := by
  have ⟨hb, he⟩ := idle
  calc issue v s = exec i s := issue_of_idle_of_decode idle hd
    _ = .next (s.latchError .illegalOperand) := by rw [exec_of_idle hb he, firstError_of_illFormed s hw]
    _ = .next (failed 2 s) := by rw [State.latchError_of_no_err he]; rfl

/-- Settles O8: each of the three words decodes at every index, an index outside its range makes the command ill formed,
and the issue of an ill-formed command latches ILLEGAL_OPERAND. -/
theorem indexOutsideRangeIsIllegalOperand : Obligations.IndexOutsideRangeIsIllegalOperand := by
  refine ⟨fun s b idle h => ?_, fun s b idle h => ?_, fun s b idle h => ?_, fun b => ?_⟩
  · exact issue_of_illFormed idle (decode_packFields_gfRcon b) (Instr.gfRcon_wellFormed_eq_false h)
  · exact issue_of_illFormed idle (decode_packFields_addRoundKey b) (Instr.addRoundKey_wellFormed_eq_false h)
  · exact issue_of_illFormed idle (decode_packFields_cipherRound b) (Instr.cipherRound_wellFormed_eq_false h)
  · exact ⟨decode_packFields_gfRcon b, decode_packFields_addRoundKey b, decode_packFields_cipherRound b⟩

end Sys2Proof.Machine
end

section
/-! PROOFS. What the issue and the completion of any command do, in the words of the statements (R216, R250). -/

namespace Sys2Proof

/-! ## Words with a nonzero reserved field (R84) -/

theorem decode_of_rsvOf_ne_zero {v : Word} (h : rsvOf v ≠ 0) : decode v = .illegal .reservedFieldNonzero := by
  rw [decode, if_pos h]

end Sys2Proof

namespace Sys2Proof.Machine

/-! ## Issue -/

/-- BUSY and ERR are looked at before the word is (R216 steps 1 and 2). -/
theorem commonChecksApply (v : Word) : CommonChecksApply v := by
  refine ⟨fun s hb => ?_, fun s hb he => ?_⟩
  · simp only [issue, hb, if_true, State.latchError]
  · simp [issue, hb, he]

theorem issue_of_idle_of_illegal {v : Word} {s : State} (idle : Idle s) (h : IsIllegalCommand v) :
    issue v s = .next (failed 1 s) := by
  obtain ⟨hb, he⟩ := idle
  obtain ⟨why, hd⟩ := h
  calc issue v s = .next (s.latchError .illegalCommand) := by simp [issue, hb, he, hd]
    _ = .next (failed 1 s) := by rw [State.latchError_of_no_err he]; rfl

theorem raisesIllegalCommand_of_decode {v : Word} {why : IllegalReason} (hd : decode v = .illegal why) :
    RaisesIllegalCommand v :=
  ⟨⟨why, hd⟩, fun _ idle => issue_of_idle_of_illegal idle ⟨why, hd⟩⟩

theorem raisesIllegalCommand_of_reserved (opc a b : Byte) {r : Byte} (hr : r ≠ 0) :
    RaisesIllegalCommand (packFields opc r a b) :=
  raisesIllegalCommand_of_decode (decode_of_rsvOf_ne_zero (by rwa [rsvOf_packFields]))

/-- A command whose checks pass is accepted (R216 step 8). -/
theorem exec_of_idle_of_checks_pass {i : Instr} {s : State} (idle : Idle s) (h : firstError (checksOf i s) = none) :
    exec i s = .next (inFlight i s) := by
  obtain ⟨hb, he⟩ := idle
  rw [exec_of_idle hb he, h]; rfl

/-! ## Completion -/

/-- The completion of the command in flight is its effect, after which nothing is in flight (R250). -/
theorem exec_completes {i : Instr} {s u : State} (hb : s.status.busy = true) (hp : s.pending = some i)
    (effect : effectOf i s = some u) : exec i s = .next (completed u) := by
  rw [exec_of_busy hb hp, effect]; rfl

end Sys2Proof.Machine
end

section
/-! PROOFS. Arithmetic of GF(2^8) from its definition: `xtime` is linear, so multiplying by `b` commutes with every map that
respects XOR and `xtime`, and the product is commutative (R100 to R107). -/

namespace Sys2Proof.Machine

/-! ## Doubling -/

@[simp] theorem xtime_zero : xtime 0 = 0 := by decide

@[simp] theorem xtime_one : xtime 1 = 2 := by decide

theorem xtime_xor (a b : Byte) : xtime (a ^^^ b) = xtime a ^^^ xtime b := by
  have reduction_xor (p q : Bool) : (if (p ^^ q) then 0x1B else 0x00 : Byte) =
      (if p then 0x1B else 0x00) ^^^ (if q then 0x1B else 0x00) := by
    cases p <;> cases q <;> rfl
  simp only [xtime, BitVec.shiftLeft_xor_distrib, BitVec.getLsbD_xor, reduction_xor]
  ac_rfl

/-- With bit 7 clear nothing is reduced. -/
theorem xtime_of_bit7_clear {a : Byte} (h : a.getLsbD 7 = false) : xtime a = a <<< 1 := by
  simp only [xtime, h, Bool.false_eq_true, if_false]
  exact BitVec.xor_zero

/-! ## The product and the maps that respect XOR and doubling -/

/-- Such a map may be applied before the iterations of R102 or after them. -/
theorem map_gfMulBits (φ : Byte → Byte) (map_xor : ∀ x y, φ (x ^^^ y) = φ x ^^^ φ y)
    (map_xtime : ∀ x, φ (xtime x) = xtime (φ x)) (a b : Byte) (n : Nat) (t : Byte) :
    φ (gfMulBits a b n t) = gfMulBits (φ a) b n (φ t) := by
  induction n generalizing t with
  | zero => rfl
  | succ i ih =>
    have map_step : φ (gfMulStep a b i t) = gfMulStep (φ a) b i (φ t) := by
      unfold gfMulStep; split <;> simp only [map_xor, map_xtime]
    rw [gfMulBits, gfMulBits, ih, map_step]

theorem map_gfMul (φ : Byte → Byte) (map_zero : φ 0 = 0) (map_xor : ∀ x y, φ (x ^^^ y) = φ x ^^^ φ y)
    (map_xtime : ∀ x, φ (xtime x) = xtime (φ x)) (a b : Byte) : φ (gfMul a b) = gfMul (φ a) b := by
  rw [gfMul, map_gfMulBits φ map_xor map_xtime, map_zero, gfMul]

theorem gfMul_xtime_left (a b : Byte) : gfMul (xtime a) b = xtime (gfMul a b) :=
  (map_gfMul xtime xtime_zero xtime_xor (fun _ => rfl) a b).symm

@[simp] theorem gfMul_zero_left (b : Byte) : gfMul 0 b = 0 :=
  (map_gfMul (fun _ => 0) rfl (fun _ _ => rfl) (fun _ => rfl) 0 b).symm

/-! ## The product is additive in its first operand -/

theorem gfMulStep_xor (a a' b : Byte) (i : Nat) (t t' : Byte) :
    gfMulStep (a ^^^ a') b i (t ^^^ t') = gfMulStep a b i t ^^^ gfMulStep a' b i t' := by
  unfold gfMulStep
  split
  · rw [xtime_xor]; ac_rfl
  · exact xtime_xor t t'

theorem gfMulBits_xor (a a' b : Byte) (n : Nat) (t t' : Byte) :
    gfMulBits (a ^^^ a') b n (t ^^^ t') = gfMulBits a b n t ^^^ gfMulBits a' b n t' := by
  induction n generalizing t t' with
  | zero => rfl
  | succ i ih => simp only [gfMulBits, gfMulStep_xor, ih]

theorem gfMul_xor_left (a a' b : Byte) : gfMul (a ^^^ a') b = gfMul a b ^^^ gfMul a' b :=
  gfMulBits_xor a a' b 8 0 0

/-! ## One is the unit -/

/-- Shifting one place less is doubling what is left and putting bit `i` back. -/
theorem shiftRight_eq_shiftLeft_xor_bit (b : Byte) (i : Nat) :
    b >>> i = (b >>> (i + 1)) <<< 1 ^^^ (if b.getLsbD i then 1 else 0) := by
  ext j hj
  cases j with
  | zero => cases h : b.getLsbD i <;> simp [h]
  | succ j =>
    have same_bit : i + (j + 1) = i + 1 + j := by omega
    split <;> simp [same_bit]

/-- With `a = 1` the accumulator holds the bits of `b` read so far, and nothing is ever reduced. -/
theorem gfMulStep_one_shiftRight (b : Byte) (i : Nat) : gfMulStep 1 b i (b >>> (i + 1)) = b >>> i := by
  have no_reduction : xtime (b >>> (i + 1)) = (b >>> (i + 1)) <<< 1 := xtime_of_bit7_clear (by simp)
  rw [shiftRight_eq_shiftLeft_xor_bit b i, gfMulStep, no_reduction]
  split
  · rfl
  · exact BitVec.xor_zero.symm

theorem gfMulBits_one_shiftRight (b : Byte) (n : Nat) : gfMulBits 1 b n (b >>> n) = b := by
  induction n with
  | zero => exact BitVec.ushiftRight_zero b
  | succ i ih => rw [gfMulBits, gfMulStep_one_shiftRight, ih]

@[simp] theorem gfMul_one_left (b : Byte) : gfMul 1 b = b := by
  have start : b >>> 8 = 0 := BitVec.ushiftRight_eq_zero (Nat.le_refl 8)
  rw [gfMul, ← start, gfMulBits_one_shiftRight]

/-! ## Symmetry (R107) -/

/-- `b` is itself the product `1 · b`, and multiplication by `a` takes the 1 in it to `a`. -/
theorem gfMul_comm (a b : Byte) : gfMul a b = gfMul b a :=
  calc gfMul a b = gfMul (gfMul 1 a) b := by rw [gfMul_one_left]
    _ = gfMul (gfMul 1 b) a := by
      rw [map_gfMul (gfMul · a) (gfMul_zero_left a) (gfMul_xor_left · · a) (gfMul_xtime_left · a) 1 b]
    _ = gfMul b a := by rw [gfMul_one_left]

@[simp] theorem gfMul_zero_right (a : Byte) : gfMul a 0 = 0 := by rw [gfMul_comm, gfMul_zero_left]

@[simp] theorem gfMul_one_right (a : Byte) : gfMul a 1 = a := by rw [gfMul_comm, gfMul_one_left]

theorem gfMul_two_right (a : Byte) : gfMul a 2 = xtime a := by
  rw [gfMul_comm, ← xtime_one, gfMul_xtime_left, gfMul_one_left]

end Sys2Proof.Machine
end

section
/-! PROOFS. The commands GF_ADD, GF_XTIME and GF_MUL (40_gf_arithmetic.md). -/

namespace Sys2Proof

/-! ## Their words -/

theorem decode_packFields_gfAdd (a b : Byte) : decode (packFields 0x01 0 a b) = .command (.gfAdd a b) := by
  simp [decode, decodeAB]

theorem decode_packFields_gfXtime (a : Byte) : decode (packFields 0x02 0 a 0) = .command (.gfXtime a) := by
  simp [decode, decodeOnlyA]

theorem decode_packFields_gfXtime_of_ne_zero (a : Byte) {b : Byte} (hb : b ≠ 0) :
    decode (packFields 0x02 0 a b) = .illegal .unusedFieldNonzero := by
  simpa [decode, decodeOnlyA] using hb

theorem decode_packFields_gfMul (a b : Byte) : decode (packFields 0x03 0 a b) = .command (.gfMul a b) := by
  simp [decode, decodeAB]

end Sys2Proof

namespace Sys2Proof.Machine

theorem gfXtime_word_raisesIllegalCommand {r a b : Byte} (h : r ≠ 0 ∨ b ≠ 0) :
    RaisesIllegalCommand (packFields 0x02 r a b) := by
  by_cases hr : r = 0
  · subst hr
    have hb : b ≠ 0 := h.resolve_left (not_not_intro rfl)
    exact raisesIllegalCommand_of_decode (decode_packFields_gfXtime_of_ne_zero a hb)
  · exact raisesIllegalCommand_of_reserved 0x02 a b hr

/-! ## The corner cases of R105 -/

theorem gfAdd_corner_cases (a : Byte) : gfAdd a a = 0 ∧ gfAdd a 0 = a ∧ gfAdd 0 a = a ∧ gfAdd 0xFF a = ~~~a :=
  ⟨BitVec.xor_self, BitVec.xor_zero, BitVec.zero_xor, BitVec.allOnes_xor⟩

/-! ## The statements -/

/-- Settles O11: GF_ADD has no issue check, and its effect writes the sum. -/
theorem gfAddWritesTheSum : Obligations.GfAddWritesTheSum := by
  refine ⟨decode_packFields_gfAdd, fun r a b hr => ?illegal, fun a b => commonChecksApply _, fun a b s idle => ?issue,
    fun a b s hb hp => ?completion, gfAdd_corner_cases, by decide⟩
  case illegal => exact raisesIllegalCommand_of_reserved 0x01 a b hr
  case issue => exact exec_of_idle_of_checks_pass idle rfl
  case completion => exact exec_completes hb hp rfl

/-- Settles O12: GF_XTIME has no issue check, and its effect writes the double; the corner cases are six fixed bytes. -/
theorem gfXtimeWritesTheDouble : Obligations.GfXtimeWritesTheDouble := by
  refine ⟨decode_packFields_gfXtime, fun r a b h => ?illegal, fun a => commonChecksApply _, fun a s idle => ?issue,
    fun a s hb hp => ?completion, by decide⟩
  case illegal => exact gfXtime_word_raisesIllegalCommand h
  case issue => exact exec_of_idle_of_checks_pass idle rfl
  case completion => exact exec_completes hb hp rfl

/-- Settles O13: GF_MUL has no issue check, and its effect writes the product; the corner cases at 0, 1 and 2 follow from
the first operand's by `gfMul_comm`. -/
theorem gfMulWritesTheProduct : Obligations.GfMulWritesTheProduct := by
  refine ⟨decode_packFields_gfMul, fun r a b hr => ?illegal, fun a b => commonChecksApply _, fun a b s idle => ?issue,
    fun a b s hb hp => ?completion, fun a => ?corners, gfMul_comm, by decide⟩
  case illegal => exact raisesIllegalCommand_of_reserved 0x03 a b hr
  case issue => exact exec_of_idle_of_checks_pass idle rfl
  case completion => exact exec_completes hb hp rfl
  case corners =>
    exact ⟨gfMul_zero_right a, gfMul_zero_left a, gfMul_one_right a, gfMul_one_left a, gfMul_two_right a⟩

end Sys2Proof.Machine
end

section
/-! PROOFS. The command GF_INV (41_inverse.md). -/

namespace Sys2Proof

/-! ## Its words -/

theorem decode_packFields_gfInv (a : Byte) : decode (packFields 0x04 0 a 0) = .command (.gfInv a) := by
  simp [decode, decodeOnlyA]

theorem decode_packFields_gfInv_of_ne_zero (a : Byte) {b : Byte} (hb : b ≠ 0) :
    decode (packFields 0x04 0 a b) = .illegal .unusedFieldNonzero := by
  simpa [decode, decodeOnlyA] using hb

end Sys2Proof

namespace Sys2Proof.Machine

/-- With an opcode whose B field must be 0, a nonzero RSV or B field is enough to make the word illegal (R84, R85). -/
theorem raisesIllegalCommand_of_reserved_or_unusedB {opc r a b : Byte}
    (unusedB : b ≠ 0 → decode (packFields opc 0 a b) = .illegal .unusedFieldNonzero) (h : r ≠ 0 ∨ b ≠ 0) :
    RaisesIllegalCommand (packFields opc r a b) := by
  by_cases hr : r = 0
  · subst hr
    have hb : b ≠ 0 := h.resolve_left (not_not_intro rfl)
    exact raisesIllegalCommand_of_decode (unusedB hb)
  · exact raisesIllegalCommand_of_reserved opc a b hr

/-! ## The corner cases of R123 -/

/-- R121: every product of the chain has a zero factor. -/
@[simp] theorem gfInv_zero : gfInv 0 = 0 := by simp only [gfInv, gfMul_zero_left]

@[simp] theorem gfInv_one : gfInv 1 = 1 := by simp only [gfInv, gfMul_one_left]

/-! ## The statement -/

/-- Settles O14: GF_INV has no issue check, so no byte is refused, and its effect writes the inverse; the corner cases at 0
and 1 hold by the laws of the product, the other inverses and the example's product are fixed bytes. -/
theorem gfInvWritesTheInverse : Obligations.GfInvWritesTheInverse := by
  refine ⟨decode_packFields_gfInv, fun r a b h => ?illegal, fun a => commonChecksApply _, fun a s idle => ?issue,
    fun a s hb hp => ?completion, gfInv_zero, gfInv_one, by decide +kernel⟩
  case illegal => exact raisesIllegalCommand_of_reserved_or_unusedB (decode_packFields_gfInv_of_ne_zero a) h
  case issue => exact exec_of_idle_of_checks_pass idle rfl
  case completion => exact exec_completes hb hp rfl

end Sys2Proof.Machine
end

section
/-! PROOFS. The command GF_SBOX (42_sbox.md). -/

namespace Sys2Proof

/-! ## Its words -/

theorem decode_packFields_gfSbox (a : Byte) : decode (packFields 0x05 0 a 0) = .command (.gfSbox a) := by
  simp [decode, decodeOnlyA]

theorem decode_packFields_gfSbox_of_ne_zero (a : Byte) {b : Byte} (hb : b ≠ 0) :
    decode (packFields 0x05 0 a b) = .illegal .unusedFieldNonzero := by
  simpa [decode, decodeOnlyA] using hb

end Sys2Proof

namespace Sys2Proof.Machine

/-! ## The corner cases of R134 -/

theorem sboxAffine_zero : sboxAffine 0 = 0x63 := by decide

/-- The zero-inverse case: 0 has no inverse, `gfInv` gives 0 for it, and the affine step's constant is left. -/
@[simp] theorem sbox_zero : sbox 0 = 0x63 := by rw [sbox, gfInv_zero, sboxAffine_zero]

/-! ## The statement -/

/-- Settles O15: GF_SBOX has no issue check, so no byte is refused, and its effect writes the substitute; the corner case 0
is `sbox_zero`, the other corner cases and the example are fixed bytes. -/
theorem gfSboxWritesTheSubstitute : Obligations.GfSboxWritesTheSubstitute := by
  refine ⟨decode_packFields_gfSbox, fun r a b h => ?illegal, fun a => commonChecksApply _, fun a s idle => ?issue,
    fun a s hb hp => ?completion, sbox_zero, by decide +kernel⟩
  case illegal => exact raisesIllegalCommand_of_reserved_or_unusedB (decode_packFields_gfSbox_of_ne_zero a) h
  case issue => exact exec_of_idle_of_checks_pass idle rfl
  case completion => exact exec_completes hb hp rfl

end Sys2Proof.Machine
end

section
/-! PROOFS. The illegal words of the commands with no operand and of those with an operand in B alone (R85), and the first
failing issue check of any command (R216). -/

namespace Sys2Proof

/-! ## Words with a nonzero field that must be 0 -/

theorem packFields_of_fields_zero {v : Word} (hr : rsvOf v = 0) (ha : aOf v = 0) (hb : bOf v = 0) :
    v = packFields (opcOf v) 0 0 0 :=
  calc v = packFields (opcOf v) (rsvOf v) (aOf v) (bOf v) := (packFields_fields v).symm
    _ = packFields (opcOf v) 0 0 0 := by rw [hr, ha, hb]

theorem decodeNoOperand_of_ne {v : Word} (i : Instr) (hr : rsvOf v = 0) (hne : v ≠ packFields (opcOf v) 0 0 0) :
    decodeNoOperand v i = .illegal .unusedFieldNonzero :=
  if_neg fun ⟨ha, hb⟩ => hne (packFields_of_fields_zero hr ha hb)

theorem decode_of_opcOf_subBytes {v : Word} (ho : opcOf v = 0x10) (hr : rsvOf v = 0) :
    decode v = decodeNoOperand v .subBytes := by simp [decode, ho, hr]

theorem decode_of_opcOf_shiftRows {v : Word} (ho : opcOf v = 0x11) (hr : rsvOf v = 0) :
    decode v = decodeNoOperand v .shiftRows := by simp [decode, ho, hr]

theorem decode_of_opcOf_mixColumns {v : Word} (ho : opcOf v = 0x12) (hr : rsvOf v = 0) :
    decode v = decodeNoOperand v .mixColumns := by simp [decode, ho, hr]

theorem decode_packFields_addRoundKey_of_ne_zero {a : Byte} (ha : a ≠ 0) (k : Byte) :
    decode (packFields 0x13 0 a k) = .illegal .unusedFieldNonzero := by
  simpa [decode, decodeOnlyB] using ha

theorem Instr.addRoundKey_wellFormed_of_le {k : Byte} (h : k.toNat ≤ 10) : (Instr.addRoundKey k).wellFormed = true :=
  decide_eq_true h

end Sys2Proof

namespace Sys2Proof.Machine

/-- With an opcode that has no operand, the word with all other fields 0 is the only legal one. -/
theorem raisesIllegalCommand_of_noOperand {opc : Byte} {i : Instr} {v : Word}
    (row : opcOf v = opc → rsvOf v = 0 → decode v = decodeNoOperand v i) (ho : opcOf v = opc)
    (hne : v ≠ packFields opc 0 0 0) : RaisesIllegalCommand v := by
  by_cases hr : rsvOf v = 0
  · have unused : decode v = .illegal .unusedFieldNonzero := by
      rw [row ho hr, decodeNoOperand_of_ne i hr (by rwa [ho])]
    exact raisesIllegalCommand_of_decode unused
  · exact raisesIllegalCommand_of_decode (decode_of_rsvOf_ne_zero hr)

/-- With an opcode whose A field must be 0, a nonzero RSV or A field is enough to make the word illegal (R84, R85). -/
theorem raisesIllegalCommand_of_reserved_or_unusedA {opc r a b : Byte}
    (unusedA : a ≠ 0 → decode (packFields opc 0 a b) = .illegal .unusedFieldNonzero) (h : r ≠ 0 ∨ a ≠ 0) :
    RaisesIllegalCommand (packFields opc r a b) := by
  by_cases hr : r = 0
  · subst hr
    have ha : a ≠ 0 := h.resolve_left (not_not_intro rfl)
    exact raisesIllegalCommand_of_decode (unusedA ha)
  · exact raisesIllegalCommand_of_reserved opc a b hr

/-! ## Which check fails first (R216 steps 5 to 7) -/

theorem needState_of_not_loaded {s : State} (h : s.status.stateValid ≠ 0xF) : needState s = some .stateNotLoaded :=
  if_neg h

theorem needRoundKeys_of_not_valid {s : State} (h : s.status.rkValid = false) :
    needRoundKeys s = some .roundKeysNotValid := if_neg (by simp [h])

/-- The index check and the KEY check come before the STATE check. -/
theorem firstError_of_state_not_loaded {i : Instr} {s : State} (hw : i.wellFormed = true)
    (hk : readsKey i = true → s.status.keyValid = 0xF) (reads : readsState i = true)
    (h : s.status.stateValid ≠ 0xF) : firstError (checksOf i s) = some .stateNotLoaded := by
  have fails := needState_of_not_loaded h
  cases i with
  | subBytes | shiftRows | mixColumns => simp [checksOf, fails, firstError]
  | addRoundKey k | cipherRound k =>
    have index : needIndex (roundIndex k) = none := (roundIndex_passes k).mpr (of_decide_eq_true hw)
    simp [checksOf, index, fails, firstError]
  | encrypt =>
    have key : needKey s = none := (needKey_passes s).mpr (hk rfl)
    simp [checksOf, key, fails, firstError]
  | nop | gfAdd | gfXtime | gfMul | gfInv | gfSbox | gfRcon | expandKey => cases reads

/-- The check of the round keys is the last one. -/
theorem firstError_of_roundKeys_not_valid {i : Instr} {s : State} (hw : i.wellFormed = true)
    (loaded : s.status.stateValid = 0xF) (reads : readsRoundKeys i = true) (h : s.status.rkValid = false) :
    firstError (checksOf i s) = some .roundKeysNotValid := by
  cases i with
  | addRoundKey k | cipherRound k =>
    have index : needIndex (roundIndex k) = none := (roundIndex_passes k).mpr (of_decide_eq_true hw)
    have state : needState s = none := (needState_passes s).mpr loaded
    simp [checksOf, index, state, needRoundKeys_of_not_valid h, firstError]
  | nop | gfAdd | gfXtime | gfMul | gfInv | gfSbox | gfRcon => cases reads
  | subBytes | shiftRows | mixColumns | expandKey | encrypt => cases reads

/-! ## What the issue then does -/

theorem exec_of_idle_of_check_fails {i : Instr} {s : State} {e : ErrorCode} (idle : Idle s)
    (h : firstError (checksOf i s) = some e) : exec i s = .next (failed e.code s) := by
  have ⟨hb, he⟩ := idle
  rw [exec_of_idle hb he, h, ← State.latchError_of_no_err he]

theorem exec_of_idle_of_mayRun {i : Instr} {s : State} (idle : Idle s) (h : MayRun i s) :
    exec i s = .next (inFlight i s) :=
  exec_of_idle_of_checks_pass idle ((checks_pass_iff i s).mpr h)

/-- A command that reads STATE but not KEY, with no index or a good one, fails first at the STATE check. -/
theorem exec_of_idle_of_state_not_loaded {i : Instr} {s : State} (idle : Idle s) (hw : i.wellFormed = true)
    (hk : readsKey i = false) (reads : readsState i = true) (h : s.status.stateValid ≠ 0xF) :
    exec i s = .next (failed 4 s) :=
  exec_of_idle_of_check_fails idle (firstError_of_state_not_loaded hw (by simp [hk]) reads h)

end Sys2Proof.Machine
end

section
/-! PROOFS. The four state transforms, by cells, columns and words (R140 to R143). -/

namespace Sys2Proof.Machine

/-! ## SHIFT_ROWS -/

/-- A block of four equal words has equal columns. -/
theorem cell_of_equal_words (w : Word) (r c : Fin 4) : (⟨w, w, w, w⟩ : Block).cell r c = byteOf w r := by
  match c with
  | 0 | 1 | 2 | 3 => rfl

theorem shiftRows_equal_words (w : Word) : shiftRows ⟨w, w, w, w⟩ = ⟨w, w, w, w⟩ :=
  cell_ext fun r c => by rw [shiftRows_cell, cell_of_equal_words, cell_of_equal_words]

theorem shiftRows_four_times (s : Block) : shiftRows (shiftRows (shiftRows (shiftRows s))) = s := by
  have full_turn : ∀ r c : Fin 4, c + r + r + r + r = c := by decide
  exact cell_ext fun r c => by simp only [shiftRows_cell, full_turn]

/-! ## MIX_COLUMNS -/

theorem gfMul_two_left (a : Byte) : gfMul 2 a = xtime a := by rw [gfMul_comm, gfMul_two_right]

theorem gfMul_three_left (a : Byte) : gfMul 3 a = xtime a ^^^ a := by
  rw [show (3 : Byte) = 2 ^^^ 1 from rfl, gfMul_xor_left, gfMul_two_left, gfMul_one_left]

/-- R142 for one column, with its four sums written out. -/
def mixColumn (w : Word) : Word := wordOf
  (xtime (byteOf w 0) ^^^ (xtime (byteOf w 1) ^^^ byteOf w 1) ^^^ byteOf w 2 ^^^ byteOf w 3)
  (byteOf w 0 ^^^ xtime (byteOf w 1) ^^^ (xtime (byteOf w 2) ^^^ byteOf w 2) ^^^ byteOf w 3)
  (byteOf w 0 ^^^ byteOf w 1 ^^^ xtime (byteOf w 2) ^^^ (xtime (byteOf w 3) ^^^ byteOf w 3))
  ((xtime (byteOf w 0) ^^^ byteOf w 0) ^^^ byteOf w 1 ^^^ byteOf w 2 ^^^ xtime (byteOf w 3))

/-- Each column is mixed by itself. -/
theorem mixColumns_word (s : Block) (c : Fin 4) : (mixColumns s).word c = mixColumn (s.word c) := by
  rw [mixColumns, word_ofCells, columnOf]
  simp only [mixRow, gfMul_one_left, gfMul_two_left, gfMul_three_left, Block.cell, mixColumn]

/-- In each sum the two doubles cancel, and two of the three bytes left. -/
theorem mixColumn_equal_bytes (b : Byte) : mixColumn (wordOf b b b b) = wordOf b b b b := by
  have cancel (x y : Byte) : x ^^^ (x ^^^ y) = y := by rw [← BitVec.xor_assoc, BitVec.xor_self, BitVec.zero_xor]
  have cancel_around (x y : Byte) : x ^^^ (y ^^^ x) = y := by rw [BitVec.xor_comm y, cancel]
  simp only [mixColumn, byteOf_wordOf_0, byteOf_wordOf_1, byteOf_wordOf_2, byteOf_wordOf_3, BitVec.xor_assoc,
    BitVec.xor_comm, cancel, cancel_around]

/-! ## ADD_ROUND_KEY -/

theorem keyAdd_word (s k : Block) (c : Fin 4) : (keyAdd s k).word c = s.word c ^^^ k.word c :=
  word_ext fun r => (keyAdd_cell s k r c).trans (byteOf_xor ..).symm

theorem keyAdd_eq_xor_words (s k : Block) :
    keyAdd s k = ⟨s.w0 ^^^ k.w0, s.w1 ^^^ k.w1, s.w2 ^^^ k.w2, s.w3 ^^^ k.w3⟩ :=
  block_ext fun c => by
    rw [keyAdd_word]
    match c with
    | 0 | 1 | 2 | 3 => rfl

theorem keyAdd_keyAdd_self (s k : Block) : keyAdd (keyAdd s k) k = s :=
  block_ext fun c => by rw [keyAdd_word, keyAdd_word, BitVec.xor_assoc, BitVec.xor_self, BitVec.xor_zero]

theorem roundIndex_of_lt {k : Byte} (h : k.toNat < 11) : roundIndex k = some ⟨k.toNat, h⟩ := dif_pos h

/-! ## The statement -/

/-- Settles O54: cells for SUB_BYTES and SHIFT_ROWS, columns for MIX_COLUMNS, words for ADD_ROUND_KEY. -/
theorem transformsActByteByByte : Obligations.TransformsActByteByByte :=
  ⟨subBytes_cell, shiftRows_cell, mixColumns_word, keyAdd_eq_xor_words⟩

end Sys2Proof.Machine
end

section
/-! PROOFS. The commands SUB_BYTES, SHIFT_ROWS, MIX_COLUMNS and ADD_ROUND_KEY (43_state_transforms.md). -/

namespace Sys2Proof.Machine

/-- Settles O17: SUB_BYTES needs STATE alone, and its effect writes the S-box value of each cell. -/
theorem subBytesSubstitutesEveryByte : Obligations.SubBytesSubstitutesEveryByte := by
  refine ⟨by decide, fun v ho hne => ?illegal, commonChecksApply _, fun s idle h => ?notLoaded, fun s idle h => ?issue,
    fun s hb hp => ?completion, subBytes_cell, fun s r c h => ?zero, by decide +kernel⟩
  case illegal => exact raisesIllegalCommand_of_noOperand decode_of_opcOf_subBytes ho hne
  case notLoaded => exact exec_of_idle_of_state_not_loaded idle rfl rfl rfl h
  case issue => exact exec_of_idle_of_mayRun idle ⟨rfl, nofun, fun _ => h, nofun⟩
  case completion => exact exec_completes hb hp rfl
  case zero => rw [subBytes_cell, h, sbox_zero]

/-- Settles O18: SHIFT_ROWS needs STATE alone, and its effect moves cells along their row. -/
theorem shiftRowsRotatesEachRow : Obligations.ShiftRowsRotatesEachRow := by
  refine ⟨by decide, fun v ho hne => ?illegal, commonChecksApply _, fun s idle h => ?notLoaded, fun s idle h => ?issue,
    fun s hb hp => ?completion, fun s c => ?row0, shiftRows_equal_words, shiftRows_four_times, by decide +kernel⟩
  case illegal => exact raisesIllegalCommand_of_noOperand decode_of_opcOf_shiftRows ho hne
  case notLoaded => exact exec_of_idle_of_state_not_loaded idle rfl rfl rfl h
  case issue => exact exec_of_idle_of_mayRun idle ⟨rfl, nofun, fun _ => h, nofun⟩
  case completion => exact exec_completes hb hp rfl
  case row0 => rw [shiftRows_cell, add_zero]

/-- Settles O19: MIX_COLUMNS needs STATE alone, and its effect replaces each column by a function of that column. -/
theorem mixColumnsMultipliesEachColumn : Obligations.MixColumnsMultipliesEachColumn := by
  refine ⟨by decide, fun v ho hne => ?illegal, commonChecksApply _, fun s idle h => ?notLoaded, fun s idle h => ?issue,
    fun s hb hp => ?completion, fun s c b h => ?equalBytes, fun s c h => ?unitColumn, fun s u c h => ?independent,
    fun s c h => ?exampleColumn, by decide +kernel⟩
  case illegal => exact raisesIllegalCommand_of_noOperand decode_of_opcOf_mixColumns ho hne
  case notLoaded => exact exec_of_idle_of_state_not_loaded idle rfl rfl rfl h
  case issue => exact exec_of_idle_of_mayRun idle ⟨rfl, nofun, fun _ => h, nofun⟩
  case completion => exact exec_completes hb hp rfl
  case equalBytes => rw [mixColumns_word, h, mixColumn_equal_bytes]
  case unitColumn => rw [mixColumns_word, h]; decide
  case independent => rw [mixColumns_word, mixColumns_word, h]
  case exampleColumn => rw [mixColumns_word, h]; decide

/-- Settles O20: the three checks fail in the order of R216 steps 4, 6 and 7, and the effect adds the four words of the
round key. -/
theorem addRoundKeyAddsTheRoundKey : Obligations.AddRoundKeyAddsTheRoundKey := by
  refine ⟨decode_packFields_addRoundKey, fun r a k h => ?illegal, fun k => commonChecksApply _,
    fun k s idle h => ?outOfRange, fun k s idle hk h => ?notLoaded, fun k s idle hk hs h => ?notValid,
    fun k s idle hk hs h => ?issue, fun k s h hb hp => ?completion, fun k => rkey_expandKey k 0, keyAdd_keyAdd_self,
    by decide +kernel⟩
  case illegal =>
    exact raisesIllegalCommand_of_reserved_or_unusedA (decode_packFields_addRoundKey_of_ne_zero · k) h
  case outOfRange =>
    exact exec_of_idle_of_check_fails idle (firstError_of_illFormed s (Instr.addRoundKey_wellFormed_eq_false h))
  case notLoaded => exact exec_of_idle_of_state_not_loaded idle (Instr.addRoundKey_wellFormed_of_le hk) rfl rfl h
  case notValid =>
    have fails := firstError_of_roundKeys_not_valid (Instr.addRoundKey_wellFormed_of_le hk) hs rfl h
    exact exec_of_idle_of_check_fails idle fails
  case issue => exact exec_of_idle_of_mayRun idle ⟨Instr.addRoundKey_wellFormed_of_le hk, nofun, fun _ => hs, fun _ => h⟩
  case completion => exact exec_completes hb hp (by rw [effectOf, roundIndex_of_lt h]; rfl)

end Sys2Proof.Machine
end

section
/-! PROOFS. The commands GF_RCON and EXPAND_KEY (44_key_schedule.md). -/

namespace Sys2Proof

/-! ## Their words -/

theorem decode_packFields_gfRcon_of_ne_zero {a : Byte} (ha : a ≠ 0) (i : Byte) :
    decode (packFields 0x06 0 a i) = .illegal .unusedFieldNonzero := by
  simpa [decode, decodeOnlyB] using ha

theorem decode_of_opcOf_expandKey {v : Word} (ho : opcOf v = 0x20) (hr : rsvOf v = 0) :
    decode v = decodeNoOperand v .expandKey := by simp [decode, ho, hr]

theorem Instr.gfRcon_wellFormed_of_range {i : Byte} (lower : 1 ≤ i.toNat) (upper : i.toNat ≤ 10) :
    (Instr.gfRcon i).wellFormed = true := decide_eq_true ⟨lower, upper⟩

end Sys2Proof

namespace Sys2Proof.Machine

/-! ## GF_RCON -/

theorem rconIndex_of_range {i : Byte} (lower : 1 ≤ i.toNat) (upper : i.toNat ≤ 10) : rconIndex i = some i.toNat :=
  if_pos ⟨lower, upper⟩

/-- Settles O16: the index check is the only check of GF_RCON, and its effect writes the round constant of the index; the
corner cases are three fixed indices. -/
theorem gfRconWritesTheRoundConstant : Obligations.GfRconWritesTheRoundConstant := by
  refine ⟨decode_packFields_gfRcon, fun r a i h => ?illegal, fun i => commonChecksApply _, fun i s idle h => ?outOfRange,
    fun i s idle lower upper => ?issue, fun i s hb hp lower upper => ?completion, by decide⟩
  case illegal => exact raisesIllegalCommand_of_reserved_or_unusedA (decode_packFields_gfRcon_of_ne_zero · i) h
  case outOfRange =>
    exact exec_of_idle_of_check_fails idle (firstError_of_illFormed s (Instr.gfRcon_wellFormed_eq_false h))
  case issue =>
    exact exec_of_idle_of_mayRun idle ⟨Instr.gfRcon_wellFormed_of_range lower upper, nofun, nofun, nofun⟩
  case completion => exact exec_completes hb hp (by rw [effectOf, rconIndex_of_range lower upper]; rfl)

/-! ## EXPAND_KEY -/

theorem needKey_of_not_loaded {s : State} (h : s.status.keyValid ≠ 0xF) : needKey s = some .keyNotLoaded := if_neg h

/-- The KEY check comes before the STATE check, and a command that reads KEY has no index. -/
theorem firstError_of_key_not_loaded {i : Instr} {s : State} (reads : readsKey i = true) (h : s.status.keyValid ≠ 0xF) :
    firstError (checksOf i s) = some .keyNotLoaded := by
  cases i with
  | expandKey | encrypt => simp [checksOf, needKey_of_not_loaded h, firstError]
  | nop | gfAdd | gfXtime | gfMul | gfInv | gfSbox | gfRcon => cases reads
  | subBytes | shiftRows | mixColumns | addRoundKey | cipherRound => cases reads

theorem exec_of_idle_of_key_not_loaded {i : Instr} {s : State} (idle : Idle s) (reads : readsKey i = true)
    (h : s.status.keyValid ≠ 0xF) : exec i s = .next (failed 3 s) :=
  exec_of_idle_of_check_fails idle (firstError_of_key_not_loaded reads h)

/-- Writing round keys that stand in RK already and are valid changes nothing. -/
theorem State.setRoundKeys_of_valid {s : State} {r : Vector Word 44} (valid : s.status.rkValid = true) (same : s.rk = r) :
    s.setRoundKeys r = s := by
  have flags : s.status.roundKeysWritten = s.status := by rw [Status.roundKeysWritten, ← valid]
  rw [State.setRoundKeys, flags, ← same]

theorem writeReg_key_of_not_busy {s : State} (hb : s.status.busy = false) (j : Fin 4) (v : Word) :
    writeReg (.key j) v s = .next (s.writeKey j v) := by
  simp [writeReg, hb]

/-- Settles O21: EXPAND_KEY needs KEY alone, and its effect writes the expansion of KEY, which a rerun finds in RK already;
the example keys are read round key by round key. -/
theorem expandKeyWritesAllRoundKeys : Obligations.ExpandKeyWritesAllRoundKeys := by
  refine ⟨by decide, fun v ho hne => ?illegal, commonChecksApply _, fun s idle h => ?notLoaded, fun s idle h => ?issue,
    fun s hb hp => ?completion, fun s hb hp valid fresh => ?rerun, fun s j v hb => ?keyWrite, ?examples⟩
  case illegal => exact raisesIllegalCommand_of_noOperand decode_of_opcOf_expandKey ho hne
  case notLoaded => exact exec_of_idle_of_key_not_loaded idle rfl h
  case issue => exact exec_of_idle_of_mayRun idle ⟨rfl, fun _ => h, nofun, nofun⟩
  case completion => exact exec_completes hb hp rfl
  case rerun => exact exec_completes hb hp (congrArg some (State.setRoundKeys_of_valid valid fresh))
  case keyWrite => exact ⟨s.writeKey j v, writeReg_key_of_not_busy hb j v, rfl, rfl⟩
  case examples =>
    simp only [rkey_expandKey]
    decide +kernel

end Sys2Proof.Machine
end

section
/-! PROOFS. The commands CIPHER_ROUND and ENCRYPT (45_cipher.md). -/

namespace Sys2Proof

/-! ## Their words -/

theorem decode_packFields_cipherRound_of_ne_zero {a : Byte} (ha : a ≠ 0) (r : Byte) :
    decode (packFields 0x30 0 a r) = .illegal .unusedFieldNonzero := by
  simpa [decode, decodeOnlyB] using ha

theorem decode_of_opcOf_encrypt {v : Word} (ho : opcOf v = 0x31) (hr : rsvOf v = 0) :
    decode v = decodeNoOperand v .encrypt := by simp [decode, ho, hr]

theorem Instr.cipherRound_wellFormed_of_le {r : Byte} (h : r.toNat ≤ 10) : (Instr.cipherRound r).wellFormed = true :=
  decide_eq_true h

end Sys2Proof

namespace Sys2Proof.Machine

/-! ## CIPHER_ROUND -/

theorem cipherRound_first (s : Block) (rk : Vector Word 44) : cipherRound s rk 0 = keyAdd s (rkey rk 0) := if_pos rfl

theorem cipherRound_middle (s : Block) (rk : Vector Word 44) {r : Fin 11} (lower : 1 ≤ r.val) (upper : r.val ≤ 9) :
    cipherRound s rk r = keyAdd (mixColumns (shiftRows (subBytes s))) (rkey rk r) := by
  rw [cipherRound, if_neg (Nat.one_le_iff_ne_zero.mp lower), if_pos upper]

theorem cipherRound_last (s : Block) (rk : Vector Word 44) :
    cipherRound s rk 10 = keyAdd (shiftRows (subBytes s)) (rkey rk 10) := by
  rw [cipherRound, if_neg (by decide), if_neg (by decide)]

theorem effectOf_cipherRound_of_lt {r : Byte} (h : r.toNat < 11) (s : State) :
    effectOf (.cipherRound r) s = some (s.setState (cipherRound s.state s.rk ⟨r.toNat, h⟩)) := by
  rw [effectOf, roundIndex_of_lt h]; rfl

/-- Settles O22: the checks fail in the order of R216 steps 4, 6 and 7, the effect writes the round of the index, and
the branches of `cipherRound` are the three kinds of round of R180. -/
theorem cipherRoundPerformsOneRound : Obligations.CipherRoundPerformsOneRound := by
  refine ⟨decode_packFields_cipherRound, fun r a k h => ?illegal, fun r => commonChecksApply _,
    fun r s idle h => ?outOfRange, fun r s idle hr h => ?notLoaded, fun r s idle hr hs h => ?notValid,
    fun r s idle hr hs h => ?issue, fun r s h hb hp => ?completion, cipherRound_first,
    fun s rk _ => cipherRound_middle s rk, cipherRound_last, ?vector⟩
  case illegal =>
    exact raisesIllegalCommand_of_reserved_or_unusedA (decode_packFields_cipherRound_of_ne_zero · k) h
  case outOfRange =>
    exact exec_of_idle_of_check_fails idle (firstError_of_illFormed s (Instr.cipherRound_wellFormed_eq_false h))
  case notLoaded => exact exec_of_idle_of_state_not_loaded idle (Instr.cipherRound_wellFormed_of_le hr) rfl rfl h
  case notValid =>
    have fails := firstError_of_roundKeys_not_valid (Instr.cipherRound_wellFormed_of_le hr) hs rfl h
    exact exec_of_idle_of_check_fails idle fails
  case issue =>
    exact exec_of_idle_of_mayRun idle ⟨Instr.cipherRound_wellFormed_of_le hr, nofun, fun _ => hs, fun _ => h⟩
  case completion => exact exec_completes hb hp (effectOf_cipherRound_of_lt h s)
  case vector =>
    rw [cipherRound_middle _ _ (by decide) (by decide), rkey_expandKey]
    decide +kernel

/-! ## ENCRYPT -/

/-- The zero vector of R183: the key and the block are both all zero. -/
theorem cipher_zero_vector :
    cipher ⟨0, 0, 0, 0⟩ ⟨0, 0, 0, 0⟩ = ⟨0x66e94bd4, 0xef8a2c3b, 0x884cfa59, 0xca342b2e⟩ := by
  decide +kernel

/-- The known answer S1 of 95_test_vectors.md. -/
theorem cipher_known_answer :
    cipher ⟨0x2b7e1516, 0x28aed2a6, 0xabf71588, 0x09cf4f3c⟩ ⟨0x3243f6a8, 0x885a308d, 0x313198a2, 0xe0370734⟩ =
      ⟨0x3925841d, 0x02dc09fb, 0xdc118597, 0x196a0b32⟩ := by
  decide +kernel

theorem effectOf_encrypt (s : State) : effectOf .encrypt s = some
    { s with rk := expandKey s.key, state := cipher s.key s.state, status := { s.status with rkValid := true } } := by
  simp only [effectOf, State.setRoundKeys, State.setState, Status.roundKeysWritten]

/-- Settles O23: ENCRYPT needs KEY and then STATE, but no round keys, and its effect writes RK and STATE in one step. -/
theorem encryptWritesCiphertextAndRoundKeys : Obligations.EncryptWritesCiphertextAndRoundKeys := by
  refine ⟨by decide, fun v ho hne => ?illegal, commonChecksApply _, fun s idle h => ?keyNotLoaded,
    fun s idle hk h => ?stateNotLoaded, fun s idle hk hs => ?issue, fun s hb hp => ?completion, cipher_zero_vector,
    cipher_known_answer⟩
  case illegal => exact raisesIllegalCommand_of_noOperand decode_of_opcOf_encrypt ho hne
  case keyNotLoaded => exact exec_of_idle_of_key_not_loaded idle rfl h
  case stateNotLoaded =>
    exact exec_of_idle_of_check_fails idle (firstError_of_state_not_loaded rfl (fun _ => hk) rfl h)
  case issue => exact exec_of_idle_of_mayRun idle ⟨rfl, fun _ => hk, fun _ => hs, nofun⟩
  case completion => exact exec_completes hb hp (effectOf_encrypt s)

end Sys2Proof.Machine
end

section
/-! PROOFS. The command NOP (46_control.md). -/

namespace Sys2Proof

/-! ## Its word -/

theorem packFields_zero : packFields 0 0 0 0 = 0 := by decide

theorem decode_of_opcOf_nop {v : Word} (ho : opcOf v = 0x00) (hr : rsvOf v = 0) :
    decode v = decodeNoOperand v .nop := by simp [decode, ho, hr]

end Sys2Proof

namespace Sys2Proof.Machine

/-! ## NOP -/

/-- Settles O10: NOP has no check of its own and its effect is the identity, so the life cycle of every command is all
that it does; its word is the one with all fields 0. -/
theorem nopIsAcceptedAndChangesNothing : Obligations.NopIsAcceptedAndChangesNothing := by
  refine ⟨by decide, fun v ho hne => ?illegal, commonChecksApply _, fun s idle => ?issue, fun s hb he => ?dropped,
    fun s hb hp => ?completion⟩
  case illegal => exact raisesIllegalCommand_of_noOperand decode_of_opcOf_nop ho (by rwa [packFields_zero])
  case issue => exact exec_of_idle_of_checks_pass idle rfl
  case dropped => exact exec_of_error hb he
  case completion => exact exec_completes hb hp rfl

end Sys2Proof.Machine
end

section
/-! PROOFS. The latch of STATUS and the order of the issue checks (60_exceptions.md). -/

namespace Sys2Proof.Machine

/-! ## The latch (R211) -/

theorem State.latchError_of_err {s : State} (he : s.status.err = true) (e : ErrorCode) : s.latchError e = s := by
  rw [State.latchError, Status.latch_of_err he]

/-- Settles O32: the latch has one case for each value of ERR, and the codes are those of R212. -/
theorem firstErrorIsKept : Obligations.FirstErrorIsKept := by
  refine ⟨fun s e he => ?latched, fun s e he => ?first, rfl, rfl, rfl, rfl, rfl, rfl, rfl, rfl⟩
  case latched => exact State.latchError_of_err he e
  case first => exact State.latchError_of_no_err he e

/-! ## The check of the access, before all others (R52, R216) -/

theorem Access.legal_eq_false {a : Access} (h : a.size ≠ 4 ∨ a.off.toNat % 4 ≠ 0) : a.legal = false :=
  decide_eq_false (not_and_or.mpr h)

theorem hostAccess_of_not_legal {a : Access} (h : a.legal = false) (s : State) :
    hostAccess a s = .next (accessError a s) := by
  simp [hostAccess, h]

@[simp] theorem accessError_pending (a : Access) (s : State) : (accessError a s).pending = s.pending := by
  unfold accessError; split <;> rfl

@[simp] theorem accessError_status (a : Access) (s : State) : (accessError a s).status = s.status.latch .accessError := by
  unfold accessError; split <;> rfl

/-! ## The issue checks (R216) -/

/-- Step 1 with an error latched before: BUSY_VIOLATION is not recorded. -/
theorem issue_of_busy_of_err {s : State} (v : Word) (hb : s.status.busy = true) (he : s.status.err = true) :
    issue v s = .next s := by
  rw [(commonChecksApply v).1 s hb, Status.latch_of_err he]

theorem readsState_of_readsRoundKeys {i : Instr} (h : readsRoundKeys i = true) : readsState i = true := by
  cases i with
  | addRoundKey | cipherRound => rfl
  | nop | gfAdd | gfXtime | gfMul | gfInv | gfSbox | gfRcon => cases h
  | subBytes | shiftRows | mixColumns | expandKey | encrypt => cases h

/-- Settles O7: each clause is one place at which the issue stops. Before the word is decoded these are the access, BUSY,
ERR and the word itself; after that the issue is `exec` of the command, and its first failing check is the one latched. -/
theorem issueChecksRunInOrder : Obligations.IssueChecksRunInOrder := by
  refine ⟨fun a s h => ?access, fun v s hb he => ?busyAndError, fun v => (commonChecksApply v).1,
    fun v => (commonChecksApply v).2, fun v s idle h => ?illegalCommand, fun v s i idle hd =>
    ⟨fun hw => ?operand, fun hw reads h => ?key, fun hw hk reads h => ?state, fun hw hk hs reads h => ?roundKeys,
      fun h => ?accepted⟩⟩
  case access =>
    exact ⟨accessError a s, hostAccess_of_not_legal (Access.legal_eq_false h) s, accessError_pending a s,
      accessError_status a s⟩
  case busyAndError => exact issue_of_busy_of_err v hb he
  case illegalCommand => exact issue_of_idle_of_illegal idle h
  case operand => exact issue_of_illFormed idle hd hw
  all_goals rw [issue_of_idle_of_decode idle hd]
  case key => exact exec_of_idle_of_key_not_loaded idle reads h
  case state => exact exec_of_idle_of_check_fails idle (firstError_of_state_not_loaded hw hk reads h)
  case roundKeys =>
    have loaded : s.status.stateValid = 0xF := hs (readsState_of_readsRoundKeys reads)
    exact exec_of_idle_of_check_fails idle (firstError_of_roundKeys_not_valid hw loaded reads h)
  case accepted => exact exec_of_idle_of_mayRun idle h

end Sys2Proof.Machine
end

section
/-! PROOFS. The decoder and the encoder agree, and which words are illegal (30_encoding.md R80 to R85). -/

namespace Sys2Proof

/-! ## Decoding an encoded command (R84) -/

/-- Settles O1, command by command: a word with operands decodes by its row's lemma, the others are fixed words. -/
theorem decodeOfEncodeGivesTheCommand : Obligations.DecodeOfEncodeGivesTheCommand := by
  intro i
  cases i with
  | gfAdd a b => exact decode_packFields_gfAdd a b
  | gfXtime a => exact decode_packFields_gfXtime a
  | gfMul a b => exact decode_packFields_gfMul a b
  | gfInv a => exact decode_packFields_gfInv a
  | gfSbox a => exact decode_packFields_gfSbox a
  | gfRcon k => exact decode_packFields_gfRcon k
  | addRoundKey k => exact decode_packFields_addRoundKey k
  | cipherRound r => exact decode_packFields_cipherRound r
  | nop | subBytes | shiftRows | mixColumns | expandKey | encrypt => decide

/-! ## What each shape of row decodes to (R84) -/

theorem decodeNoOperand_eq_command {v : Word} {i j : Instr} (h : decodeNoOperand v i = .command j) :
    j = i ∧ aOf v = 0 ∧ bOf v = 0 := by
  unfold decodeNoOperand at h
  split at h
  · next fields => exact ⟨(Decoded.command.inj h).symm, fields⟩
  · cases h

theorem decodeOnlyA_eq_command {v : Word} {f : Byte → Instr} {j : Instr} (h : decodeOnlyA v f = .command j) :
    j = f (aOf v) ∧ bOf v = 0 := by
  unfold decodeOnlyA at h
  split at h
  · next field => exact ⟨(Decoded.command.inj h).symm, field⟩
  · cases h

theorem decodeOnlyB_eq_command {v : Word} {f : Byte → Instr} {j : Instr} (h : decodeOnlyB v f = .command j) :
    j = f (bOf v) ∧ aOf v = 0 := by
  unfold decodeOnlyB at h
  split at h
  · next field => exact ⟨(Decoded.command.inj h).symm, field⟩
  · cases h

theorem decodeAB_eq_command {v : Word} {f : Byte → Byte → Instr} {j : Instr} (h : decodeAB v f = .command j) :
    j = f (aOf v) (bOf v) := (Decoded.command.inj h).symm

theorem decodeNoOperand_illegal_iff (v : Word) (i : Instr) :
    (∃ why, decodeNoOperand v i = .illegal why) ↔ aOf v ≠ 0 ∨ bOf v ≠ 0 := by
  unfold decodeNoOperand; split <;> simp_all [imp_iff_not_or]

theorem decodeOnlyA_illegal_iff (v : Word) (f : Byte → Instr) :
    (∃ why, decodeOnlyA v f = .illegal why) ↔ bOf v ≠ 0 := by
  unfold decodeOnlyA; split <;> simp_all

theorem decodeOnlyB_illegal_iff (v : Word) (f : Byte → Instr) :
    (∃ why, decodeOnlyB v f = .illegal why) ↔ aOf v ≠ 0 := by
  unfold decodeOnlyB; split <;> simp_all

theorem decodeAB_illegal_iff (v : Word) (f : Byte → Byte → Instr) :
    (∃ why, decodeAB v f = .illegal why) ↔ False := by
  simp [decodeAB]

/-! ## One word for each command (R82) -/

theorem byte_eq_of_toNat {b : Byte} {n : Nat} (h : b.toNat = n) : b = BitVec.ofNat 8 n := by
  rw [← h, BitVec.ofNat_toNat, BitVec.setWidth_eq]

/-- The fields of a word that decodes to a command are those the encoder gives the command. -/
theorem fields_of_decode {v : Word} {i : Instr} (h : decode v = .command i) :
    opcOf v = opcodeOf i ∧ rsvOf v = 0 ∧ aOf v = operandAOf i ∧ bOf v = operandBOf i := by
  by_cases hr : rsvOf v = 0
  · rw [decode, if_neg (not_not_intro hr)] at h
    split at h
    case h_1 ho | h_8 ho | h_9 ho | h_10 ho | h_12 ho | h_14 ho =>
      obtain ⟨rfl, ha, hb⟩ := decodeNoOperand_eq_command h
      exact ⟨byte_eq_of_toNat ho, hr, ha, hb⟩
    case h_2 ho | h_4 ho =>
      obtain rfl := decodeAB_eq_command h
      exact ⟨byte_eq_of_toNat ho, hr, rfl, rfl⟩
    case h_3 ho | h_5 ho | h_6 ho =>
      obtain ⟨rfl, hb⟩ := decodeOnlyA_eq_command h
      exact ⟨byte_eq_of_toNat ho, hr, rfl, hb⟩
    case h_7 ho | h_11 ho | h_13 ho =>
      obtain ⟨rfl, ha⟩ := decodeOnlyB_eq_command h
      exact ⟨byte_eq_of_toNat ho, hr, ha, rfl⟩
    case h_15 => cases h
  · rw [decode_of_rsvOf_ne_zero hr] at h; cases h

/-- Settles O2: a word is its four fields, and those of a legal word are the encoder's. -/
theorem everyCommandHasOneWord : Obligations.EveryCommandHasOneWord := by
  intro v i h
  obtain ⟨ho, hr, ha, hb⟩ := fields_of_decode h
  calc v = packFields (opcOf v) (rsvOf v) (aOf v) (bOf v) := (packFields_fields v).symm
    _ = encode i := by rw [ho, hr, ha, hb, encode]

end Sys2Proof

namespace Sys2Proof.Machine

/-! ## The illegal words (R85) -/

/-- The three cases of R85, in the words of the fields. -/
theorem isIllegalCommand_iff (v : Word) : IsIllegalCommand v ↔
    (rsvOf v ≠ 0 ∨
      opcOf v ∉ ([0x00, 0x01, 0x02, 0x03, 0x04, 0x05, 0x06, 0x10, 0x11, 0x12, 0x13, 0x20, 0x30, 0x31] : List Byte) ∨
      (opcOf v ∈ ([0x00, 0x06, 0x10, 0x11, 0x12, 0x13, 0x20, 0x30, 0x31] : List Byte) ∧ aOf v ≠ 0) ∨
      (opcOf v ∈ ([0x00, 0x02, 0x04, 0x05, 0x10, 0x11, 0x12, 0x20, 0x31] : List Byte) ∧ bOf v ≠ 0)) := by
  by_cases hr : rsvOf v = 0
  · rw [IsIllegalCommand, decode, if_neg (not_not_intro hr)]
    split
    case h_1 ho | h_8 ho | h_9 ho | h_10 ho | h_12 ho | h_14 ho =>
      simp [decodeNoOperand_illegal_iff, byte_eq_of_toNat ho, hr]
    case h_2 ho | h_4 ho => simp [decodeAB_illegal_iff, byte_eq_of_toNat ho, hr]
    case h_3 ho | h_5 ho | h_6 ho => simp [decodeOnlyA_illegal_iff, byte_eq_of_toNat ho, hr]
    case h_7 ho | h_11 ho | h_13 ho => simp [decodeOnlyB_illegal_iff, byte_eq_of_toNat ho, hr]
    case h_15 =>
      refine iff_of_true ⟨_, rfl⟩ (.inr (.inl fun known => ?_))
      simp only [List.mem_cons, List.not_mem_nil, or_false] at known
      rcases known with h | h | h | h | h | h | h | h | h | h | h | h | h | h <;> simp_all
  · exact iff_of_true ⟨_, decode_of_rsvOf_ne_zero hr⟩ (.inl hr)

/-- Settles O3: the decoder answers `illegal` in the three cases of R85, and the issue of such a word fails at
R216 step 3. -/
theorem illegalWordsLatchIllegalCommand : Obligations.IllegalWordsLatchIllegalCommand :=
  ⟨isIllegalCommand_iff, fun _ _ => issue_of_idle_of_illegal⟩

/-- Settles O4: fixed words. -/
theorem wordsOfTheSpecDecode : Obligations.WordsOfTheSpecDecode := by
  refine ⟨by decide, by decide, by decide, by decide, by decide, by decide, by decide, by decide, by decide, by decide,
    by decide, by decide, by decide, by decide, ⟨_, rfl⟩, ⟨_, rfl⟩, ⟨_, rfl⟩, ⟨_, rfl⟩, ⟨_, rfl⟩, ⟨_, rfl⟩, ⟨_, rfl⟩,
    ⟨_, rfl⟩, ⟨_, rfl⟩, ⟨_, rfl⟩⟩

end Sys2Proof.Machine
end

section
/-! PROOFS. What one event does, event by event: the rules of `step` (20_memory.md R52 to R57, R62), and what the
completion of a command may change (10_state.md section 2). -/

namespace Sys2Proof.Machine

/-! ## Steps, by the next event -/

theorem setEvents_tail_of_nil {s : State} (h : s.events = []) : s.setEvents s.events.tail = s := by
  rw [h, List.tail_nil, State.setEvents, ← h]

/-- The Core's turn, with a completion event placed or with a quiet Host. -/
theorem step_of_coreTurn {s : State} (h : coreTurn s = true) : step s = coreStep (s.setEvents s.events.tail) := by
  unfold coreTurn at h
  split at h
  · next he => rw [setEvents_tail_of_nil he, step, he]
  · next he => rw [step, he]; rfl
  · cases h
  · cases h

theorem step_of_access {s : State} {a : Access} {rest : List Event} (h : s.events = .access a :: rest) :
    step s = hostAccess a (s.setEvents rest) := by
  rw [step, h]; rfl

theorem hostAccess_read {off : Byte} (aligned : off.toNat % 4 = 0) (s : State) :
    hostAccess { off := off, size := 4, kind := .read } s = .next (s.answerRead (regAt off)) := by
  simp [hostAccess, Access.legal, aligned]

theorem hostAccess_write {off : Byte} (aligned : off.toNat % 4 = 0) (v : Word) (s : State) :
    hostAccess { off := off, size := 4, kind := .write v } s = writeReg (regAt off) v (s.respond .writeDone) := by
  simp [hostAccess, Access.legal, aligned]

theorem step_of_read {s : State} {off : Byte} {rest : List Event}
    (h : s.events = .access { off := off, size := 4, kind := .read } :: rest) (aligned : off.toNat % 4 = 0) :
    step s = .next ((s.setEvents rest).answerRead (regAt off)) := by
  rw [step_of_access h, hostAccess_read aligned]

theorem step_of_write {s : State} {off : Byte} {v : Word} {rest : List Event}
    (h : s.events = .access { off := off, size := 4, kind := .write v } :: rest) (aligned : off.toNat % 4 = 0) :
    step s = writeReg (regAt off) v (answered s rest) := by
  rw [step_of_access h, hostAccess_write aligned]; rfl

theorem WriteComes.writesNext {s : State} {r : Reg} {v : Word} {rest : List Event} (h : WriteComes s r v rest) :
    writesNext s r v := by
  obtain ⟨off, event, aligned, reg⟩ := h
  exact ⟨off, rest, event, aligned, reg⟩

/-! ## What an access error leaves unchanged (R52) -/

@[simp] theorem accessError_key (a : Access) (s : State) : (accessError a s).key = s.key := by
  unfold accessError; split <;> rfl

@[simp] theorem accessError_state (a : Access) (s : State) : (accessError a s).state = s.state := by
  unfold accessError; split <;> rfl

@[simp] theorem accessError_rk (a : Access) (s : State) : (accessError a s).rk = s.rk := by
  unfold accessError; split <;> rfl

@[simp] theorem accessError_gfResult (a : Access) (s : State) : (accessError a s).gfResult = s.gfResult := by
  unfold accessError; split <;> rfl

@[simp] theorem accessError_events (a : Access) (s : State) : (accessError a s).events = s.events := by
  unfold accessError; split <;> rfl

/-! ## What a command's effect may change (R22 to R26, R33) -/

/-- The frame of the command `i`: all that its effect, which takes `s` to `u`, may change. -/
structure EffectFrame (i : Instr) (s u : State) : Prop where
  key : u.key = s.key
  state : readsState i = false → u.state = s.state
  gfResult : writesGfResult i = false → u.gfResult = s.gfResult
  rk : u.rk = if writesRoundKeys i then expandKey s.key else s.rk
  status : u.status = if writesRoundKeys i then s.status.roundKeysWritten else s.status
  pending : u.pending = s.pending
  events : u.events = s.events
  responses : u.responses = s.responses
  draws : u.draws = s.draws

theorem effectFrame_setGfResult {i : Instr} (s : State) (v : Byte) (writes : writesGfResult i = true)
    (keys : writesRoundKeys i = false) : EffectFrame i s (s.setGfResult v) := by
  constructor <;> simp [writes, keys]

theorem effectFrame_setState {i : Instr} (s : State) (b : Block) (reads : readsState i = true)
    (keys : writesRoundKeys i = false) : EffectFrame i s (s.setState b) := by
  constructor <;> simp [reads, keys]

/-- Each effect is one of the three register writes, both of them for ENCRYPT, or nothing. -/
theorem effectOf_frame {i : Instr} {s u : State} (h : effectOf i s = some u) : EffectFrame i s u := by
  cases i with
  | nop => cases h; constructor <;> simp [writesRoundKeys]
  | gfAdd | gfXtime | gfMul | gfInv | gfSbox => cases h; exact effectFrame_setGfResult s _ rfl rfl
  | gfRcon k =>
    obtain ⟨v, -, rfl⟩ := Option.map_eq_some_iff.mp h
    exact effectFrame_setGfResult s v rfl rfl
  | subBytes | shiftRows | mixColumns => cases h; exact effectFrame_setState s _ rfl rfl
  | addRoundKey k | cipherRound k =>
    obtain ⟨b, -, rfl⟩ := Option.map_eq_some_iff.mp h
    exact effectFrame_setState s b rfl rfl
  | expandKey => cases h; constructor <;> simp [writesRoundKeys]
  | encrypt => cases h; constructor <;> simp [writesRoundKeys, readsState]

theorem EffectFrame.err {i : Instr} {s u : State} (h : EffectFrame i s u) : u.status.err = s.status.err := by
  rw [h.status]; split <;> rfl

theorem EffectFrame.errCode {i : Instr} {s u : State} (h : EffectFrame i s u) : u.status.errCode = s.status.errCode := by
  rw [h.status]; split <;> rfl

theorem EffectFrame.keyValid {i : Instr} {s u : State} (h : EffectFrame i s u) :
    u.status.keyValid = s.status.keyValid := by
  rw [h.status]; split <;> rfl

theorem EffectFrame.stateValid {i : Instr} {s u : State} (h : EffectFrame i s u) :
    u.status.stateValid = s.status.stateValid := by
  rw [h.status]; split <;> rfl

theorem EffectFrame.rkValid {i : Instr} {s u : State} (h : EffectFrame i s u) :
    u.status.rkValid = (writesRoundKeys i || s.status.rkValid) := by
  rw [h.status]; split <;> simp_all

theorem EffectFrame.rk_of_not_writes {i : Instr} {s u : State} (h : EffectFrame i s u)
    (keys : writesRoundKeys i = false) : u.rk = s.rk := by
  simp [h.rk, keys]

theorem writesRoundKeys_iff (i : Instr) : writesRoundKeys i = true ↔ i = .expandKey ∨ i = .encrypt := by
  cases i <;> simp [writesRoundKeys]

end Sys2Proof.Machine
end

section
/-! PROOFS. The invariant holds after reset, every step keeps it, and under it no event stops the block (60_exceptions.md
section 1). -/

namespace Sys2Proof.Machine

/-! ## The invariant and the updates of the state -/

/-- The invariant speaks of KEY, RK, STATUS and PENDING only. -/
theorem Invariant.of_same_registers {s t : State} (h : Invariant s) (key : t.key = s.key) (rk : t.rk = s.rk)
    (status : t.status = s.status) (pending : t.pending = s.pending) : Invariant t where
  busy_iff_pending := by rw [status, pending, h.busy_iff_pending]
  no_code_without_error := by rw [status]; exact h.no_code_without_error
  code_is_raised := by rw [status]; exact h.code_is_raised
  round_keys_fresh := by rw [status, rk, key]; exact h.round_keys_fresh
  in_flight_checked i hp := by
    obtain ⟨hi, hk, hs, hr⟩ := h.in_flight_checked i (pending ▸ hp)
    exact ⟨hi, by rwa [status], by rwa [status], by rwa [status]⟩

theorem Invariant.setEvents {s : State} (h : Invariant s) (es : List Event) : Invariant (s.setEvents es) :=
  h.of_same_registers rfl rfl rfl rfl

theorem Invariant.answered {s : State} (h : Invariant s) (rest : List Event) : Invariant (answered s rest) :=
  h.of_same_registers rfl rfl rfl rfl

theorem Invariant.not_in_flight {s : State} (h : Invariant s) (hb : s.status.busy = false) : s.pending = none := by
  simpa [hb] using h.busy_iff_pending

theorem Invariant.pending_of_busy {s : State} (h : Invariant s) (hb : s.status.busy = true) :
    ∃ i, s.pending = some i ∧ MayRun i s := by
  obtain ⟨i, hp⟩ := Option.isSome_iff_exists.mp (h.busy_iff_pending.symm.trans hb)
  exact ⟨i, hp, h.in_flight_checked i hp⟩

theorem invariant_resetEvent (s : State) : Invariant s.resetEvent where
  busy_iff_pending := rfl
  no_code_without_error _ := rfl
  code_is_raised h := nomatch h
  round_keys_fresh h := nomatch h
  in_flight_checked _ h := nomatch h

/-! ### Errors -/

theorem ErrorCode.code_range {e : ErrorCode} (h : e ≠ .shapeMismatch) : 1 ≤ e.code.toNat ∧ e.code.toNat ≤ 7 := by
  cases e with
  | shapeMismatch => exact absurd rfl h
  | illegalCommand | illegalOperand | keyNotLoaded | stateNotLoaded => decide
  | roundKeysNotValid | busyViolation | accessError => decide

theorem mem_of_firstError {cs : List (Option ErrorCode)} {e : ErrorCode} (h : firstError cs = some e) : some e ∈ cs := by
  induction cs with
  | nil => cases h
  | cons c cs ih =>
    cases c with
    | none => exact List.mem_cons_of_mem _ (ih h)
    | some e' => cases h; exact List.mem_cons_self

/-- No issue check raises SHAPE_MISMATCH (R144). -/
theorem ne_shapeMismatch_of_check_fails {i : Instr} {s : State} {e : ErrorCode}
    (h : firstError (checksOf i s) = some e) : e ≠ .shapeMismatch := by
  rintro rfl
  have index {α : Type} (idx : Option α) : needIndex idx ≠ some .shapeMismatch := by cases idx <;> simp [needIndex]
  have key : needKey s ≠ some .shapeMismatch := by unfold needKey; split <;> simp
  have state : needState s ≠ some .shapeMismatch := by unfold needState; split <;> simp
  have roundKeys : needRoundKeys s ≠ some .shapeMismatch := by unfold needRoundKeys; split <;> simp
  have raised := mem_of_firstError h
  cases i <;> simp [checksOf, key.symm, state.symm, roundKeys.symm, (index _).symm] at raised

theorem Invariant.latchError {s : State} (h : Invariant s) {e : ErrorCode} (he : e ≠ .shapeMismatch) :
    Invariant (s.latchError e) where
  busy_iff_pending := by simpa using h.busy_iff_pending
  no_code_without_error := by simp
  code_is_raised _ := by
    rw [State.latchError_status, Status.latch_errCode]
    split
    · next latched => exact h.code_is_raised latched
    · exact ErrorCode.code_range he
  round_keys_fresh := by simpa using h.round_keys_fresh
  in_flight_checked i hp := by
    obtain ⟨hi, hk, hs, hr⟩ := h.in_flight_checked i hp
    exact ⟨hi, by simpa using hk, by simpa using hs, by simpa using hr⟩

theorem Invariant.accessError {s : State} (h : Invariant s) (a : Access) : Invariant (accessError a s) :=
  (h.latchError (e := .accessError) nofun).of_same_registers (by simp) (by simp) (by simp) (by simp)

theorem State.writeStatus_of_bit_set {v : Word} (h : v.getLsbD 1 = true) (s : State) :
    s.writeStatus v = { s with status := s.status.clearError } := by
  rw [State.writeStatus, Status.write, if_pos h]

theorem State.writeStatus_of_bit_clear {v : Word} (h : v.getLsbD 1 = false) (s : State) : s.writeStatus v = s := by
  rw [State.writeStatus, Status.write, if_neg (by rw [h]; decide)]

theorem Invariant.clearError {s : State} (h : Invariant s) : Invariant { s with status := s.status.clearError } where
  busy_iff_pending := h.busy_iff_pending
  no_code_without_error _ := rfl
  code_is_raised he := nomatch he
  round_keys_fresh := h.round_keys_fresh
  in_flight_checked i hp := by
    obtain ⟨hi, hk, hs, hr⟩ := h.in_flight_checked i hp
    exact ⟨hi, hk, hs, hr⟩

theorem Invariant.writeStatus {s : State} (h : Invariant s) (v : Word) : Invariant (s.writeStatus v) := by
  cases hv : v.getLsbD 1 with
  | true => rw [State.writeStatus_of_bit_set hv]; exact h.clearError
  | false => rw [State.writeStatus_of_bit_clear hv]; exact h

/-! ### Writes to KEY and STATE, which are accepted with no command in flight only -/

theorem Invariant.writeKey {s : State} (h : Invariant s) (hb : s.status.busy = false) (j : Fin 4) (v : Word) :
    Invariant (s.writeKey j v) where
  busy_iff_pending := h.busy_iff_pending
  no_code_without_error := h.no_code_without_error
  code_is_raised := h.code_is_raised
  round_keys_fresh valid := nomatch valid
  in_flight_checked _ hp := nomatch (h.not_in_flight hb).symm.trans hp

theorem Invariant.writeState {s : State} (h : Invariant s) (hb : s.status.busy = false) (c : Fin 4) (v : Word) :
    Invariant (s.writeState c v) where
  busy_iff_pending := h.busy_iff_pending
  no_code_without_error := h.no_code_without_error
  code_is_raised := h.code_is_raised
  round_keys_fresh := h.round_keys_fresh
  in_flight_checked _ hp := nomatch (h.not_in_flight hb).symm.trans hp

/-! ### The life of a command -/

theorem Invariant.accept {s : State} (h : Invariant s) {i : Instr} (check : MayRun i s) : Invariant (s.accept i) where
  busy_iff_pending := rfl
  no_code_without_error := h.no_code_without_error
  code_is_raised := h.code_is_raised
  round_keys_fresh := h.round_keys_fresh
  in_flight_checked j hp := by
    obtain rfl : i = j := Option.some.inj hp
    exact ⟨check.index, check.key, check.state, check.roundKeys⟩

/-- A command that sets RK_VALID has written the expansion of KEY to RK; no other command touches RK, RK_VALID or KEY. -/
theorem Invariant.retire {s u : State} {i : Instr} (h : Invariant s) (effect : effectOf i s = some u) :
    Invariant u.retire where
  busy_iff_pending := rfl
  no_code_without_error he := by
    have frame := effectOf_frame effect
    exact frame.errCode.trans (h.no_code_without_error (frame.err.symm.trans he))
  code_is_raised he := by
    have frame := effectOf_frame effect
    have raised := h.code_is_raised (frame.err.symm.trans he)
    rwa [← frame.errCode] at raised
  round_keys_fresh valid := by
    have frame := effectOf_frame effect
    change u.status.rkValid = true at valid
    rw [frame.rkValid] at valid
    change u.rk = expandKey u.key
    rw [frame.rk, frame.key]
    split
    · rfl
    · next keys => exact h.round_keys_fresh (by simpa [keys] using valid)
  in_flight_checked j hp := nomatch hp

/-! ## The statements -/

/-- Settles O43: the reset state is what the reset event makes of it. -/
theorem invariantHoldsAtReset : Obligations.InvariantHoldsAtReset := invariant_resetEvent State.reset

/-- Settles O44: each way of making a step is an update of the state that keeps the invariant. -/
theorem everyStepKeepsTheInvariant : Obligations.EveryStepKeepsTheInvariant := by
  intro s t h move
  cases step_moves move with
  | rests => exact h.setEvents _
  | completes _ _ _ effect => exact (h.setEvents _).retire effect
  | resets => exact invariant_resetEvent _
  | badAccess => exact (h.setEvents _).accessError _
  | reads => exact h.of_same_registers rfl rfl rfl rfl
  | turnedAway | illegal => exact (h.answered _).latchError nofun
  | dropped | ignored => exact h.answered _
  | checkFails _ _ _ _ check => exact (h.answered _).latchError (ne_shapeMismatch_of_check_fails check)
  | accepts _ _ _ _ check => exact (h.answered _).accept ((checks_pass_iff _ _).mp check)
  | writesStatus => exact (h.answered _).writeStatus _
  | writesKey _ idle => exact Invariant.writeKey (h.answered _) (by exact idle) _ _
  | writesState _ idle => exact Invariant.writeState (h.answered _) (by exact idle) _ _

/-! ## No event stops the block (R210) -/

theorem exec_answers_of_not_busy (i : Instr) {s : State} (hb : s.status.busy = false) : ∃ t, exec i s = .next t := by
  cases he : s.status.err with
  | true => exact ⟨s, exec_of_error hb he⟩
  | false =>
    rw [exec_of_idle hb he]
    split
    · exact ⟨_, rfl⟩
    · exact ⟨_, rfl⟩

theorem issue_answers (v : Word) (s : State) : ∃ t, issue v s = .next t := by
  unfold issue
  split
  · exact ⟨_, rfl⟩
  · next hb =>
    split
    · exact ⟨_, rfl⟩
    · split
      · exact ⟨_, rfl⟩
      · exact exec_answers_of_not_busy _ (Bool.eq_false_iff.mpr hb)

theorem writeReg_answers (r : Reg) (v : Word) (s : State) : ∃ t, writeReg r v s = .next t := by
  cases r with
  | cmd => exact issue_answers v s
  | key | state =>
    simp only [writeReg]
    split
    · exact ⟨_, rfl⟩
    · exact ⟨_, rfl⟩
  | status | gfResult | rk | reserved => exact ⟨_, rfl⟩

theorem hostAccess_answers (a : Access) (s : State) : ∃ t, hostAccess a s = .next t := by
  unfold hostAccess
  split
  · split
    · exact ⟨_, rfl⟩
    · exact writeReg_answers ..
  · exact ⟨_, rfl⟩

/-- Completion never fails: the command in flight is in PENDING, and its index passed its check. -/
theorem Invariant.coreStep_answers {s : State} (h : Invariant s) : ∃ t, coreStep s = .next t := by
  cases hb : s.status.busy with
  | false => exact ⟨s, by simp [coreStep, hb]⟩
  | true =>
    obtain ⟨i, hp, mayRun⟩ := h.pending_of_busy hb
    obtain ⟨u, effect⟩ := effectOf_isSome (s := s) mayRun.index
    exact ⟨completed u, by simp [coreStep, hb, hp, exec_completes hb hp effect]⟩

/-- Settles O45: a host access and a reset are answered in every state, the Core's turn under the invariant. -/
theorem stepNeverStopsUnderTheInvariant : Obligations.StepNeverStopsUnderTheInvariant := by
  intro s h
  unfold step
  split
  · exact h.coreStep_answers
  · next e rest _ =>
    cases e with
    | access a => exact hostAccess_answers a _
    | complete => exact (h.setEvents rest).coreStep_answers
    | reset => exact ⟨_, rfl⟩

end Sys2Proof.Machine
end

section
/-! PROOFS. What may change each register and each field of STATUS: one walk over the moves of a step for each (10_state.md
sections 2 and 3, 60_exceptions.md section 1). -/

namespace Sys2Proof.Machine

theorem getLsbD_bit_self (x : BitVec 4) (j : Fin 4) : (x ||| 1#4 <<< j.val).getLsbD j.val = true := by
  simp

/-- Settles O35: no completion touches KEY, and of the accesses only an accepted KEY write does. -/
theorem onlyHostWritesChangeKey : Obligations.OnlyHostWritesChangeKey := by
  intro s t move changed
  cases step_moves move with
  | resets event => exact .inl ⟨_, event⟩
  | writesKey event idle =>
    exact .inr ⟨_, _, event.writesNext, idle, rfl, getLsbD_bit_self .., rfl⟩
  | completes _ _ _ effect => exact absurd (effectOf_frame effect).key changed
  | badAccess => exact absurd (accessError_key ..) changed
  | rests | reads | turnedAway | dropped | illegal | checkFails => exact absurd rfl changed
  | accepts | writesStatus | writesState | ignored => exact absurd rfl changed

/-- Settles O36: a completion that changes STATE is of a command that reads it. -/
theorem onlyWritesAndStateCommandsChangeState : Obligations.OnlyWritesAndStateCommandsChangeState := by
  intro s t move changed
  cases step_moves move with
  | resets event => exact .inl ⟨_, event⟩
  | writesState event idle =>
    exact .inr (.inl ⟨_, _, event.writesNext, idle, rfl, getLsbD_bit_self ..⟩)
  | @completes i u turn busy pending effect =>
    have reads : readsState i = true := by
      by_contra notReads
      exact changed ((effectOf_frame effect).state (Bool.eq_false_iff.mpr notReads))
    exact .inr (.inr ⟨turn, busy, i, pending, reads⟩)
  | badAccess => exact absurd (accessError_state ..) changed
  | rests | reads | turnedAway | dropped | illegal | checkFails => exact absurd rfl changed
  | accepts | writesStatus | writesKey | ignored => exact absurd rfl changed

theorem pending_of_writesRoundKeys {s : State} {i : Instr} (pending : s.pending = some i)
    (keys : writesRoundKeys i = true) : s.pending = some .expandKey ∨ s.pending = some .encrypt := by
  rcases (writesRoundKeys_iff i).mp keys with rfl | rfl
  · exact .inl pending
  · exact .inr pending

/-- Settles O37: a completion that changes RK is of a command that writes round keys, and its frame says what it writes. -/
theorem onlyKeyExpansionChangesRoundKeys : Obligations.OnlyKeyExpansionChangesRoundKeys := by
  intro s t move changed
  cases step_moves move with
  | resets event => exact .inl ⟨_, event⟩
  | @completes i u turn busy pending effect =>
    have frame := effectOf_frame effect
    have keys : writesRoundKeys i = true := by
      by_contra notKeys
      exact changed (frame.rk_of_not_writes (Bool.eq_false_iff.mpr notKeys))
    have written : u.rk = expandKey s.key := by rw [frame.rk, if_pos keys]; rfl
    have valid : u.status.rkValid = true := by rw [frame.rkValid, keys]; rfl
    exact .inr ⟨turn, busy, pending_of_writesRoundKeys pending keys, written, valid⟩
  | badAccess => exact absurd (accessError_rk ..) changed
  | rests | reads | turnedAway | dropped | illegal | checkFails => exact absurd rfl changed
  | accepts | writesStatus | writesKey | writesState | ignored => exact absurd rfl changed

/-- The register holds its byte and nothing else (R26). -/
theorem regValue_gfResult_bits (s : State) :
    (s.regValue .gfResult).extractLsb' 8 24 = 0 ∧ (s.regValue .gfResult).extractLsb' 0 8 = s.gfResult := by
  constructor
  · ext i hi
    simp [State.regValue, zext32]
  · ext i hi
    have inWord : i < 32 := by omega
    simp [State.regValue, zext32, inWord, BitVec.getLsbD_eq_getElem hi]

/-- Settles O38: a completion that changes GF_RESULT is of a byte command. -/
theorem onlyByteCommandsChangeGfResult : Obligations.OnlyByteCommandsChangeGfResult := by
  refine ⟨fun s t move changed => ?_, regValue_gfResult_bits⟩
  cases step_moves move with
  | resets event => exact .inl ⟨_, event⟩
  | @completes i u turn busy pending effect =>
    have writes : writesGfResult i = true := by
      by_contra notWrites
      exact changed ((effectOf_frame effect).gfResult (Bool.eq_false_iff.mpr notWrites))
    exact .inr ⟨turn, busy, i, pending, writes⟩
  | badAccess => exact absurd (accessError_gfResult ..) changed
  | rests | reads | turnedAway | dropped | illegal | checkFails => exact absurd rfl changed
  | accepts | writesStatus | writesKey | writesState | ignored => exact absurd rfl changed

/-- Settles O39: the valid bits are only ever ORed with a bit. -/
theorem onlyResetClearsValidBits : Obligations.OnlyResetClearsValidBits := by
  intro s t move noReset b
  have grows {x y : BitVec 4} (h : ∃ z, y = x ||| z) : x.getLsbD b = true → y.getLsbD b = true := by
    obtain ⟨z, rfl⟩ := h
    simp +contextual
  suffices (∃ z, t.status.keyValid = s.status.keyValid ||| z) ∧ ∃ z, t.status.stateValid = s.status.stateValid ||| z from
    ⟨grows this.1, grows this.2⟩
  have same (x : BitVec 4) : ∃ z, x = x ||| z := ⟨x, BitVec.or_self.symm⟩
  cases step_moves move with
  | resets event => exact absurd ⟨_, event⟩ noReset
  | writesKey => exact ⟨⟨_, rfl⟩, same _⟩
  | writesState => exact ⟨same _, ⟨_, rfl⟩⟩
  | completes _ _ _ effect =>
    have frame := effectOf_frame effect
    simpa [frame.keyValid, frame.stateValid] using ⟨same _, same _⟩
  | badAccess | turnedAway | illegal | checkFails | writesStatus => simpa using ⟨same _, same _⟩
  | rests | reads | dropped | accepts | ignored => exact ⟨same _, same _⟩

/-- Settles O40: a completion can only raise RK_VALID, an access can only lower it. -/
theorem roundKeysValidIsSetAndCleared : Obligations.RoundKeysValidIsSetAndCleared := by
  refine ⟨fun s t move off on => ?raised, fun s t move on off => ?lowered⟩
  case raised =>
    cases step_moves move with
    | @completes i u turn busy pending effect =>
      have keys : writesRoundKeys i = true := by
        have := (effectOf_frame effect).rkValid.symm.trans on
        simpa [off] using this
      exact ⟨turn, busy, pending_of_writesRoundKeys pending keys⟩
    | resets | writesKey => cases on
    | badAccess | turnedAway | illegal | checkFails | writesStatus => simp [off] at on
    | rests | reads | dropped | accepts | writesState | ignored => exact absurd (off.symm.trans on) nofun
  case lowered =>
    cases step_moves move with
    | resets event => exact .inl ⟨_, event⟩
    | writesKey event idle => exact .inr ⟨_, _, event.writesNext, idle⟩
    | completes _ _ _ effect =>
      have := (effectOf_frame effect).rkValid.symm.trans off
      simp [on] at this
    | badAccess | turnedAway | illegal | checkFails | writesStatus => simp [on] at off
    | rests | reads | dropped | accepts | writesState | ignored => exact absurd (on.symm.trans off) nofun

/-- Settles O41: the latch keeps the first code, and only a STATUS write and reset clear it. -/
theorem errorIsLeftOnlyByClearing : Obligations.ErrorIsLeftOnlyByClearing := by
  intro s t move err
  have kept (same : t.status = s.status) : (t.status.err = false → resetsNext s ∨ ∃ v, writesNext s .status v ∧
      v.getLsbD 1 = true) ∧ (t.status.err = true → t.status.errCode = s.status.errCode) := by
    simp [same, err]
  cases step_moves move with
  | resets event => exact ⟨fun _ => .inl ⟨_, event⟩, nofun⟩
  | @writesStatus v rest event =>
    cases hv : v.getLsbD 1 with
    | true => exact ⟨fun _ => .inr ⟨v, event.writesNext, hv⟩, by simp [State.writeStatus_of_bit_set hv]⟩
    | false => exact kept (by rw [State.writeStatus_of_bit_clear hv]; rfl)
  | completes _ _ _ effect =>
    have frame := effectOf_frame effect
    simp [frame.err, frame.errCode, err]
  | badAccess => exact kept ((accessError_status ..).trans (Status.latch_of_err err _))
  | turnedAway | illegal | checkFails => exact kept (Status.latch_of_err err _)
  | rests | reads | dropped | ignored => exact kept rfl
  | accepts | writesKey | writesState => simp [err]

/-- Settles O42: BUSY rises in the one move that accepts a command, whose checks then hold, and falls in two. -/
theorem busyIsRaisedByIssueLoweredByCompletion : Obligations.BusyIsRaisedByIssueLoweredByCompletion := by
  refine ⟨fun s t move off on => ?raised, fun s t move on off => ?lowered⟩
  case raised =>
    cases step_moves move with
    | @accepts v rest i event idle err word check =>
      obtain ⟨hi, hk, hs, hr⟩ := (checks_pass_iff _ _).mp check
      exact ⟨v, i, event.writesNext, word, err, ⟨hi, hk, hs, hr⟩, rfl⟩
    | completes | resets => cases on
    | badAccess | turnedAway | illegal | checkFails | writesStatus => simp [off] at on
    | rests | reads | dropped | writesKey | writesState | ignored => exact absurd (off.symm.trans on) nofun
  case lowered =>
    cases step_moves move with
    | completes turn => exact .inl turn
    | resets event => exact .inr ⟨_, event⟩
    | badAccess | turnedAway | illegal | checkFails | writesStatus => simp [on] at off
    | rests | reads | dropped | accepts | writesKey | writesState | ignored => simp [on] at off

end Sys2Proof.Machine
end

section
/-! PROOFS. A command in flight: the Host cannot disturb it, and its completion changes only what it may (70_reset_and_hazards.md
sections 3 and 4, 10_state.md section 2). -/

namespace Sys2Proof.Machine

/-! ## Accesses made while a command is in flight (R246, R250) -/

/-- `u` agrees with `s` in all that the command in flight depends on, and in all that its completion writes. -/
structure SameInFlight (s u : State) : Prop where
  key : u.key = s.key
  state : u.state = s.state
  rk : u.rk = s.rk
  gfResult : u.gfResult = s.gfResult
  pending : u.pending = s.pending
  busy : u.status.busy = s.status.busy
  rkValid : u.status.rkValid = s.status.rkValid

theorem SameInFlight.trans {s t u : State} (h : SameInFlight s t) (h' : SameInFlight t u) : SameInFlight s u where
  key := h'.key.trans h.key
  state := h'.state.trans h.state
  rk := h'.rk.trans h.rk
  gfResult := h'.gfResult.trans h.gfResult
  pending := h'.pending.trans h.pending
  busy := h'.busy.trans h.busy
  rkValid := h'.rkValid.trans h.rkValid

theorem SameInFlight.refl (s : State) : SameInFlight s s := ⟨rfl, rfl, rfl, rfl, rfl, rfl, rfl⟩

theorem sameInFlight_setEvents (s : State) (es : List Event) : SameInFlight s (s.setEvents es) :=
  ⟨rfl, rfl, rfl, rfl, rfl, rfl, rfl⟩

theorem sameInFlight_respond (s : State) (r : Response) : SameInFlight s (s.respond r) :=
  ⟨rfl, rfl, rfl, rfl, rfl, rfl, rfl⟩

theorem sameInFlight_answerRead (s : State) (r : Reg) : SameInFlight s (s.answerRead r) :=
  ⟨rfl, rfl, rfl, rfl, rfl, rfl, rfl⟩

theorem sameInFlight_latchError (s : State) (e : ErrorCode) : SameInFlight s (s.latchError e) := by
  constructor <;> simp

theorem sameInFlight_writeStatus (s : State) (v : Word) : SameInFlight s (s.writeStatus v) := by
  constructor <;> simp

theorem sameInFlight_accessError (a : Access) (s : State) : SameInFlight s (accessError a s) := by
  constructor <;> simp

theorem issue_of_busy {s : State} (v : Word) (hb : s.status.busy = true) :
    issue v s = .next (s.latchError .busyViolation) := (commonChecksApply v).1 s hb

theorem writeReg_key_of_busy {s : State} (hb : s.status.busy = true) (j : Fin 4) (v : Word) :
    writeReg (.key j) v s = .next (s.latchError .busyViolation) := if_pos hb

theorem writeReg_state_of_busy {s : State} (hb : s.status.busy = true) (c : Fin 4) (v : Word) :
    writeReg (.state c) v s = .next (s.latchError .busyViolation) := if_pos hb

theorem writeReg_of_busy {s : State} (hb : s.status.busy = true) (r : Reg) (v : Word) :
    ∃ t, writeReg r v s = .next t ∧ SameInFlight s t ∧ t.events = s.events := by
  have refused := And.intro (sameInFlight_latchError s .busyViolation) (State.latchError_events s .busyViolation)
  cases r with
  | cmd => exact ⟨_, issue_of_busy v hb, refused⟩
  | key j => exact ⟨_, writeReg_key_of_busy hb j v, refused⟩
  | state c => exact ⟨_, writeReg_state_of_busy hb c v, refused⟩
  | status => exact ⟨_, rfl, sameInFlight_writeStatus s v, rfl⟩
  | gfResult | rk | reserved => exact ⟨s, rfl, SameInFlight.refl s, rfl⟩

theorem hostAccess_of_busy {s : State} (hb : s.status.busy = true) (a : Access) :
    ∃ t, hostAccess a s = .next t ∧ SameInFlight s t ∧ t.events = s.events := by
  unfold hostAccess
  split
  · split
    · exact ⟨_, rfl, sameInFlight_answerRead s _, rfl⟩
    · next v _ =>
      obtain ⟨t, written, same, events⟩ := writeReg_of_busy (s := s.respond .writeDone) hb (regAt a.off) v
      exact ⟨t, written, (sameInFlight_respond s _).trans same, events⟩
  · exact ⟨_, rfl, sameInFlight_accessError a s, accessError_events a s⟩

theorem run_succ_of_step {s t : State} (h : step s = .next t) (n : Nat) :
    Host.Core.run core (n + 1) s = Host.Core.run core n t := by
  have move : core.step s = .next t := h
  simp only [Host.Core.run, move]

theorem run_accesses_of_busy (accesses : List Access) {s : State} (hb : s.status.busy = true)
    (events : s.events = accesses.map Event.access) :
    ∃ u, Host.Core.run core accesses.length s = .next u ∧ SameInFlight s u := by
  induction accesses generalizing s with
  | nil => exact ⟨s, rfl, SameInFlight.refl s⟩
  | cons a rest ih =>
    obtain ⟨t, access, same, left⟩ := hostAccess_of_busy (s := s.setEvents (rest.map Event.access)) hb a
    obtain ⟨u, run, same'⟩ := ih (s := t) (same.busy.trans hb) left
    have move : step s = .next t := (step_of_access events).trans access
    exact ⟨u, (run_succ_of_step move _).trans run, ((sameInFlight_setEvents s _).trans same).trans same'⟩

/-! ### The completion depends on nothing else -/

/-- `R` relates states with equal KEY, STATE and RK, and the writes of an effect keep it. -/
structure KeptByEffects (R : State → State → Prop) : Prop where
  key {s u} : R s u → u.key = s.key
  state {s u} : R s u → u.state = s.state
  rk {s u} : R s u → u.rk = s.rk
  setGfResult {s u} (v : Byte) : R s u → R (s.setGfResult v) (u.setGfResult v)
  setState {s u} (b : Block) : R s u → R (s.setState b) (u.setState b)
  setRoundKeys {s u} (r : Vector Word 44) : R s u → R (s.setRoundKeys r) (u.setRoundKeys r)

/-- Effects read KEY, STATE and RK and nothing else. -/
theorem KeptByEffects.effectOf {R : State → State → Prop} (kept : KeptByEffects R) {s u a : State} {i : Instr}
    (h : R s u) (effect : effectOf i s = some a) : ∃ b, effectOf i u = some b ∧ R a b := by
  cases i with
  | nop => cases effect; exact ⟨u, rfl, h⟩
  | gfAdd | gfXtime | gfMul | gfInv | gfSbox => cases effect; exact ⟨_, rfl, kept.setGfResult _ h⟩
  | gfRcon k =>
    obtain ⟨v, index, rfl⟩ := Option.map_eq_some_iff.mp effect
    exact ⟨u.setGfResult v, congrArg (Option.map u.setGfResult) index, kept.setGfResult v h⟩
  | subBytes | shiftRows | mixColumns =>
    cases effect
    exact ⟨_, rfl, by rw [kept.state h]; exact kept.setState _ h⟩
  | addRoundKey k | cipherRound k =>
    obtain ⟨b, result, rfl⟩ := Option.map_eq_some_iff.mp effect
    rw [← kept.state h, ← kept.rk h] at result
    exact ⟨u.setState b, congrArg (Option.map u.setState) result, kept.setState b h⟩
  | expandKey =>
    cases effect
    exact ⟨_, rfl, by rw [kept.key h]; exact kept.setRoundKeys _ h⟩
  | encrypt =>
    cases effect
    exact ⟨_, rfl, by rw [kept.key h, kept.state h]; exact kept.setState _ (kept.setRoundKeys _ h)⟩

theorem sameInFlight_keptByEffects : KeptByEffects SameInFlight where
  key h := h.key
  state h := h.state
  rk h := h.rk
  setGfResult _ h := ⟨h.key, h.state, h.rk, rfl, h.pending, h.busy, h.rkValid⟩
  setState _ h := ⟨h.key, rfl, h.rk, h.gfResult, h.pending, h.busy, h.rkValid⟩
  setRoundKeys _ h := ⟨h.key, h.state, rfl, h.gfResult, h.pending, h.busy, rfl⟩

/-- A change of the state that no effect looks at may be made before the effect or after it. -/
theorem effectOf_map {φ : State → State} (kept : KeptByEffects fun s u => u = φ s) {i : Instr} {s u : State}
    (effect : effectOf i s = some u) : effectOf i (φ s) = some (φ u) := by
  obtain ⟨_, effect', rfl⟩ := kept.effectOf rfl effect
  exact effect'

/-- While BUSY = 1 the only thing `exec` can do is complete the command in flight. -/
theorem effect_of_exec_of_busy {i : Instr} {s t : State} (hb : s.status.busy = true) (h : exec i s = .next t) :
    s.pending = some i ∧ ∃ u, effectOf i s = some u ∧ t = completed u := by
  rcases exec_next h with ⟨_, pending, effect⟩ | ⟨idle, _⟩ | ⟨idle, _⟩ | ⟨idle, _⟩
  · exact ⟨pending, effect⟩
  all_goals exact absurd (hb.symm.trans idle) nofun

/-- Settles O46: every access made while BUSY = 1 keeps what the completion depends on, by induction so does every list of
them. -/
theorem hostCannotDisturbTheCommandInFlight : Obligations.HostCannotDisturbTheCommandInFlight := by
  intro s accesses hb
  obtain ⟨u, run, same⟩ := run_accesses_of_busy accesses (s := s.setEvents (accesses.map Event.access)) hb rfl
  replace same : SameInFlight s u := (sameInFlight_setEvents s _).trans same
  have hbu : u.status.busy = true := same.busy.trans hb
  refine ⟨u, run, same.key, same.state, same.rk, same.gfResult, same.pending, hbu, fun i t completes => ?_⟩
  obtain ⟨pending, a, effect, rfl⟩ := effect_of_exec_of_busy hb completes
  obtain ⟨b, effect', agree⟩ := sameInFlight_keptByEffects.effectOf same effect
  exact ⟨completed b, exec_completes hbu (same.pending.trans pending) effect', agree.key, agree.state, agree.rk,
    agree.gfResult, agree.rkValid⟩

/-! ## A latched error does not disturb it either (R214) -/

theorem Status.latch_roundKeysWritten (st : Status) (e : ErrorCode) :
    (st.latch e).roundKeysWritten = st.roundKeysWritten.latch e := by
  unfold Status.latch; split <;> simp_all [Status.roundKeysWritten]

theorem Status.latch_finished (st : Status) (e : ErrorCode) : (st.latch e).finished = st.finished.latch e := by
  unfold Status.latch; split <;> simp_all [Status.finished]

theorem completed_latchError (s : State) (e : ErrorCode) : completed (s.latchError e) = (completed s).latchError e :=
  congrArg (fun st => { s with pending := none, status := st }) (Status.latch_finished s.status e)

theorem latchError_keptByEffects (e : ErrorCode) : KeptByEffects fun s u => u = s.latchError e where
  key := by rintro s _ rfl; rfl
  state := by rintro s _ rfl; rfl
  rk := by rintro s _ rfl; rfl
  setGfResult := by rintro s _ v rfl; rfl
  setState := by rintro s _ b rfl; rfl
  setRoundKeys := by
    rintro s _ r rfl
    exact congrArg (fun st => { s with rk := r, status := st }) (Status.latch_roundKeysWritten s.status e)

/-- Settles O9: a dropped command reaches R216 step 2 only, and no effect looks at ERR or ERR_CODE. -/
theorem commandsAreDroppedWhileErrorIsLatched : Obligations.CommandsAreDroppedWhileErrorIsLatched := by
  refine ⟨fun s v rest event hb he => ?dropped, fun i s t e hb completes => ?inFlight⟩
  case dropped =>
    calc step s = issue v (answered s rest) := step_of_write event rfl
      _ = .next (answered s rest) := (commonChecksApply v).2 _ hb he
  case inFlight =>
    obtain ⟨pending, u, effect, rfl⟩ := effect_of_exec_of_busy hb completes
    have hb' : (s.latchError e).status.busy = true := by simpa using hb
    exact (exec_completes hb' pending (effectOf_map (latchError_keptByEffects e) effect)).trans
      (congrArg _ (completed_latchError u e))

/-! ## Every command completes (R210), and what it leaves unchanged -/

/-- Settles O24: the command is accepted because its checks pass, and a well-formed command has a completion. -/
theorem everyCommandThatMayRunCompletes : Obligations.EveryCommandThatMayRunCompletes := by
  intro i s idle mayRun
  obtain ⟨u, effect⟩ := effectOf_isSome (s := inFlight i s) mayRun.index
  have noError : u.status.err = false := (effectOf_frame effect).err.trans idle.2
  exact ⟨inFlight i s, completed u, exec_of_idle_of_mayRun idle mayRun, rfl, rfl, exec_completes rfl rfl effect, rfl, rfl,
    noError⟩

/-- Only an accepted command raises BUSY. -/
theorem eq_inFlight_of_exec {i : Instr} {s u : State} (off : s.status.busy = false) (h : exec i s = .next u)
    (on : u.status.busy = true) : u = inFlight i s := by
  rcases exec_next h with ⟨hb, _⟩ | ⟨_, _, rfl⟩ | ⟨_, _, e, _, rfl⟩ | ⟨_, _, _, rfl⟩
  · exact absurd (off.symm.trans hb) nofun
  · exact absurd (off.symm.trans on) nofun
  · simp [off] at on
  · rfl

theorem status_of_completed_of_frame {i : Instr} {s u : State} (off : s.status.busy = false)
    (frame : EffectFrame i (inFlight i s) u) (keys : writesRoundKeys i = false) : (completed u).status = s.status := by
  have status : u.status = { s.status with busy := true } := by simp [frame.status, keys, inFlight]
  simp [completed, status, ← off]

/-- Settles O25: the frame of the command's effect, register by register. -/
theorem commandsLeaveOtherRegistersUnchanged : Obligations.CommandsLeaveOtherRegistersUnchanged := by
  intro i s u t off issued on completes
  obtain rfl := eq_inFlight_of_exec off issued on
  obtain ⟨-, w, effect, rfl⟩ := effect_of_exec_of_busy on completes
  have frame := effectOf_frame effect
  refine ⟨fun r mayNot => ?registers, frame.err, frame.errCode, frame.keyValid, frame.stateValid,
    fun keys => by rw [status_of_completed_of_frame off frame keys], frame.events, frame.responses, frame.draws⟩
  cases r with
  | cmd | reserved => rfl
  | status => exact congrArg Status.toWord (status_of_completed_of_frame off frame mayNot)
  | gfResult => exact congrArg zext32 (frame.gfResult mayNot)
  | key j => exact congrArg (·.word j) frame.key
  | state c => exact congrArg (·.word c) (frame.state mayNot)
  | rk n => exact congrArg (·[n.val]) (frame.rk_of_not_writes mayNot)

end Sys2Proof.Machine
end

section
/-! PROOFS. The register window: the map, the fields of STATUS, and the effect of every access (20_memory.md, 10_state.md
section 3). -/

namespace Sys2Proof.Machine

/-! ## The register map (R50, R51) -/

theorem regAt_ofNat_key (j : Fin 4) : regAt (BitVec.ofNat 8 (0x10 + 4 * j.val)) = .key j := by
  revert j; decide

theorem regAt_ofNat_state (c : Fin 4) : regAt (BitVec.ofNat 8 (0x20 + 4 * c.val)) = .state c := by
  revert c; decide

theorem regAt_ofNat_rk (w : Fin 44) : regAt (BitVec.ofNat 8 (0x40 + 4 * w.val)) = .rk w := by
  revert w; decide

theorem regAt_key {off : Byte} {j : Fin 4} (h : off.toNat = 0x10 + 4 * j.val) : regAt off = .key j := by
  rw [byte_eq_of_toNat h, regAt_ofNat_key]

theorem regAt_state {off : Byte} {c : Fin 4} (h : off.toNat = 0x20 + 4 * c.val) : regAt off = .state c := by
  rw [byte_eq_of_toNat h, regAt_ofNat_state]

theorem regAt_rk {off : Byte} {w : Fin 44} (h : off.toNat = 0x40 + 4 * w.val) : regAt off = .rk w := by
  rw [byte_eq_of_toNat h, regAt_ofNat_rk]

/-- The registers of R36 stand at 0x10 to 0x2F and at 0x40 to 0xEF, beside GF_RESULT. -/
theorem holdsData_regAt {off : Byte}
    (h : 0x10 ≤ off.toNat ∧ off.toNat < 0x30 ∨ 0x40 ≤ off.toNat ∧ off.toNat < 0xF0) :
    (regAt off).holdsData = true := by
  revert off; decide +kernel

theorem regAt_reserved {off : Byte} (h : 0x30 ≤ off.toNat ∧ off.toNat < 0x40 ∨ 0xF0 ≤ off.toNat) :
    regAt off = .reserved := by
  revert off; decide +kernel

/-- A register that is not reserved has one aligned offset. -/
theorem offset_regAt {o : Byte} (aligned : o.toNat % 4 = 0) (named : regAt o ≠ .reserved) : (regAt o).offset = o := by
  revert o; decide +kernel

/-- Settles O29: each range of the map is a table of offsets, and no two of them give one register because the register
gives its offset back. -/
theorem registerMapIsTheSpecs : Obligations.RegisterMapIsTheSpecs := by
  have reserved : ∀ c : Fin 4, regAt (BitVec.ofNat 8 (0x30 + 4 * c.val)) = .reserved ∧
      regAt (BitVec.ofNat 8 (0xF0 + 4 * c.val)) = .reserved := by decide
  refine ⟨rfl, rfl, rfl, rfl, regAt_ofNat_key, fun c => ⟨regAt_ofNat_state c, reserved c⟩, regAt_ofNat_rk,
    fun o p ho hp same named => ?_⟩
  calc o = (regAt o).offset := (offset_regAt ho named).symm
    _ = (regAt p).offset := by rw [same]
    _ = p := offset_regAt hp (same ▸ named)

/-- Settles O30: the window is the 256 bytes from BASE, so the offset of an address in it is one byte. -/
theorem windowSeesOffsetsFromBase : Obligations.WindowSeesOffsetsFromBase := by
  refine ⟨Nat.mul_mod_right .., fun off n k => ?inside, fun addr n k outside => ?outside⟩
  case inside =>
    have range : Config.base ≤ Config.base + off.toNat ∧ Config.base + off.toNat < Config.base + 256 := by omega
    rw [windowAccess, if_pos range, Nat.add_sub_cancel_left, BitVec.ofNat_toNat, BitVec.setWidth_eq]
  case outside => exact if_neg (by omega)

/-! ## The fields of STATUS (R28) -/

/-- Settles O31: STATUS is its fields and its reserved zeros, appended. -/
theorem statusReadsAsItsFields : Obligations.StatusReadsAsItsFields := by
  intro st
  unfold Status.toWord
  refine ⟨?busy, ?err, ?reservedLow, ?errCode, ?keyValid, ?stateValid, ?rkValid, ?reservedHigh⟩
  case busy | err | rkValid =>
    repeat rw [BitVec.getLsbD_append]
    simp
  all_goals simp (disch := decide) only [BitVec.extractLsb'_append_eq_of_le, BitVec.extractLsb'_append_eq_of_add_le]
  case reservedLow | reservedHigh => decide
  case errCode | keyValid | stateValid => exact BitVec.extractLsb'_eq_self

/-! ## Reads (R55) -/

/-- A read of a specified value changes nothing but the events and the answers. -/
theorem answerRead_of_specified {s : State} {r : Reg} (h : s.status.busy = false ∨ r.holdsData = false)
    (rest : List Event) :
    (s.setEvents rest).answerRead r = afterAccess s rest (.readData (s.regValue r)) := by
  have specified : ¬(s.status.busy = true ∧ r.holdsData = true) := by
    rintro ⟨hb, hd⟩
    rcases h with h | h
    · exact absurd (h.symm.trans hb) nofun
    · exact absurd (h.symm.trans hd) nofun
  simp only [State.answerRead, State.readValue, State.setEvents_status, specified, if_false]
  rfl

theorem step_of_read_of_specified {s : State} {off : Byte} {rest : List Event} {r : Reg}
    (event : s.events = .access { off := off, size := 4, kind := .read } :: rest) (aligned : off.toNat % 4 = 0)
    (reg : regAt off = r) (h : s.status.busy = false ∨ r.holdsData = false) :
    step s = .next (afterAccess s rest (.readData (s.regValue r))) := by
  rw [step_of_read event aligned, reg, answerRead_of_specified h]

/-- A data register read while BUSY = 1 answers the next draw (R17, R36). -/
theorem step_of_read_of_busy {s : State} {off : Byte} {rest : List Event}
    (event : s.events = .access { off := off, size := 4, kind := .read } :: rest) (aligned : off.toNat % 4 = 0)
    (data : (regAt off).holdsData = true) (hb : s.status.busy = true) :
    step s = .next { afterAccess s rest (.readData (Config.anyU32 s.draws)) with draws := s.draws + 1 } := by
  rw [step_of_read event aligned]
  simp only [State.answerRead, State.readValue, State.setEvents_status, hb, data, and_self, if_true]
  rfl

/-- Settles O27: the map gives the register at the offset; its value is a free one in the one clause of a busy block. -/
theorem legalReadsReturnTheRegister : Obligations.LegalReadsReturnTheRegister := by
  intro s off rest event
  refine ⟨fun h => ?cmd, fun h => ?status, fun h idle => ?gfResult, fun j h idle => ?key, fun c h idle => ?state,
    fun w h idle => ?rk, fun h hb => ?busy, fun h => ?reserved⟩
  case cmd => subst h; exact step_of_read_of_specified event rfl (r := .cmd) rfl (.inr rfl)
  case status => subst h; exact step_of_read_of_specified event rfl (r := .status) rfl (.inr rfl)
  case gfResult => subst h; exact step_of_read_of_specified event rfl (r := .gfResult) rfl (.inl idle)
  case key => exact step_of_read_of_specified event (by omega) (regAt_key h) (.inl idle)
  case state => exact step_of_read_of_specified event (by omega) (regAt_state h) (.inl idle)
  case rk => exact step_of_read_of_specified event (by omega) (regAt_rk h) (.inl idle)
  case busy =>
    rcases h with rfl | ⟨aligned, range⟩
    · exact step_of_read_of_busy event rfl rfl hb
    · exact step_of_read_of_busy event aligned (holdsData_regAt range) hb
  case reserved =>
    rcases h with rfl | ⟨aligned, range⟩
    · exact step_of_read_of_specified event rfl (r := .reserved) rfl (.inr rfl)
    · exact step_of_read_of_specified event aligned (regAt_reserved range) (.inr rfl)

/-! ## Writes (R56) -/

/-- KEY and STATE stand together at 0x10 to 0x2F. -/
theorem regAt_key_or_state {off : Byte} (lower : 0x10 ≤ off.toNat) (upper : off.toNat < 0x30) :
    (∃ j, regAt off = .key j) ∨ ∃ c, regAt off = .state c := by
  revert off; decide +kernel

/-- What a write to the register does is nothing. -/
def IgnoresWrites (r : Reg) : Prop := ∀ v s, writeReg r v s = .next s

theorem ignoresWrites_regAt {off : Byte} (h : 0x30 ≤ off.toNat) : IgnoresWrites (regAt off) := by
  by_cases rk : 0x40 ≤ off.toNat ∧ off.toNat < 0xF0
  · obtain ⟨w, reg⟩ : ∃ w, regAt off = .rk w := by revert off; decide +kernel
    rw [reg]; exact fun _ _ => rfl
  · rw [regAt_reserved (by omega)]; exact fun _ _ => rfl

theorem writeReg_state_of_not_busy {s : State} (hb : s.status.busy = false) (c : Fin 4) (v : Word) :
    writeReg (.state c) v s = .next (s.writeState c v) := by
  simp [writeReg, hb]

/-- Settles O28: the map gives the register at the offset, and `writeReg` says what the write does to it. -/
theorem legalWritesChangeTheRegister : Obligations.LegalWritesChangeTheRegister := by
  intro s off v rest event
  have write (aligned : off.toNat % 4 = 0) {r : Reg} (reg : regAt off = r) : step s = writeReg r v (answered s rest) := by
    rw [step_of_write event aligned, reg]
  refine ⟨fun h => ?cmd, fun h bit => ?clears, fun h bit => ?keeps, fun j h idle => ?key, fun c h idle => ?state,
    fun aligned lower upper hb => ?refused, fun h => ?ignored⟩
  case cmd => subst h; exact write rfl rfl
  case clears =>
    subst h
    exact (write rfl rfl).trans (congrArg _ (State.writeStatus_of_bit_set bit _))
  case keeps =>
    subst h
    exact (write rfl rfl).trans (congrArg _ (State.writeStatus_of_bit_clear bit _))
  case key => exact (write (by omega) (regAt_key h)).trans (writeReg_key_of_not_busy (by exact idle) j v)
  case state => exact (write (by omega) (regAt_state h)).trans (writeReg_state_of_not_busy (by exact idle) c v)
  case refused =>
    rcases regAt_key_or_state lower upper with ⟨j, reg⟩ | ⟨c, reg⟩
    · exact (write aligned reg).trans (writeReg_key_of_busy (by exact hb) j v)
    · exact (write aligned reg).trans (writeReg_state_of_busy (by exact hb) c v)
  case ignored =>
    rcases h with rfl | rfl | ⟨aligned, range⟩
    · exact write rfl rfl
    · exact write rfl rfl
    · exact (write aligned rfl).trans (ignoresWrites_regAt range v _)

/-! ## Access errors, reset, and the two steps of a command -/

/-- Settles O26: the access is not legal, so it is answered before its register is looked at. -/
theorem illegalAccessLatchesAccessError : Obligations.IllegalAccessLatchesAccessError := by
  intro s a rest event h
  have answer : step s = .next (accessError a (s.setEvents rest)) := by
    rw [step_of_access event, hostAccess_of_not_legal (Access.legal_eq_false h)]
  refine ⟨fun read => ?_, fun v write => ?_⟩
  · rw [answer, accessError, read]; rfl
  · rw [answer, accessError, write]; rfl

/-- Settles O34: reset is an event of its own, and it looks at no field of the block. -/
theorem resetEventAbandonsTheCommandInFlight : Obligations.ResetEventAbandonsTheCommandInFlight := by
  intro s rest event
  rw [step, event]; rfl

/-- Settles O5: the write is issued in the answered state, which is as idle as `s`. -/
theorem commandWriteStepRunsDecodedCommand : Obligations.CommandWriteStepRunsDecodedCommand := by
  intro s v rest i event idle word
  calc step s = issue v (answered s rest) := step_of_write event rfl
    _ = exec i (answered s rest) := issue_of_idle_of_decode idle word

theorem coreStep_of_busy {s : State} {i : Instr} (hb : s.status.busy = true) (pending : s.pending = some i) :
    coreStep s = exec i s := by
  simp [coreStep, hb, pending]

theorem coreStep_of_not_busy {s : State} (hb : s.status.busy = false) : coreStep s = .next s := by
  simp [coreStep, hb]

/-- Settles O6: in the Core's turn the step is `coreStep`, and of the moves made then with BUSY = 1 there is only
completion. -/
theorem completionStepRunsPending : Obligations.CompletionStepRunsPending := by
  have placed {s : State} {rest : List Event} (event : s.events = .complete :: rest) :
      step s = coreStep (s.setEvents rest) := by
    rw [step_of_coreTurn (by simp [coreTurn, event]), event, List.tail_cons]
  have quiet {s : State} (event : s.events = []) : step s = coreStep s := by
    rw [step_of_coreTurn (by simp [coreTurn, event]), setEvents_tail_of_nil event]
  refine ⟨fun s i rest event hb pending => ?_, fun s i event hb pending => ?_, fun s rest event hb => ?_,
    fun s event hb => ?_, fun s t turn hb move => ?_⟩
  · exact (placed event).trans (coreStep_of_busy hb pending)
  · exact (quiet event).trans (coreStep_of_busy hb pending)
  · exact (placed event).trans (coreStep_of_not_busy hb)
  · exact (quiet event).trans (coreStep_of_not_busy hb)
  · cases step_moves move with
    | completes => exact ⟨rfl, rfl⟩
    | rests _ idle => exact absurd (hb.symm.trans idle) nofun
    | resets event | badAccess event | reads event => simp [coreTurn, event] at turn
    | turnedAway event | dropped event | illegal event | checkFails event | accepts event | writesStatus event
    | writesKey event | writesState event | ignored event =>
      obtain ⟨off, event, -⟩ := event
      simp [coreTurn, event] at turn

end Sys2Proof.Machine
end

section
/-! PROOFS. The field GF(2^8): its laws, the inverse and the S-box (R103, R104, R122, R132, R133, R160). -/

namespace Sys2Proof.Machine

/-! ## The laws of the product (R104) -/

theorem gfMul_xor_right (a b c : Byte) : gfMul a (b ^^^ c) = gfMul a b ^^^ gfMul a c := by
  rw [gfMul_comm, gfMul_xor_left, gfMul_comm b, gfMul_comm c]

theorem gfMul_xtime_right (a b : Byte) : gfMul a (xtime b) = xtime (gfMul a b) := by
  rw [gfMul_comm, gfMul_xtime_left, gfMul_comm]

/-- Multiplication by `c` respects XOR and doubling, so it goes through a product to its first operand. -/
theorem gfMul_right_comm (a b c : Byte) : gfMul (gfMul a b) c = gfMul (gfMul a c) b :=
  map_gfMul (gfMul · c) (gfMul_zero_left c) (gfMul_xor_left · · c) (gfMul_xtime_left · c) a b

theorem gfMul_assoc (a b c : Byte) : gfMul (gfMul a b) c = gfMul a (gfMul b c) :=
  calc gfMul (gfMul a b) c = gfMul (gfMul b a) c := by rw [gfMul_comm a]
    _ = gfMul (gfMul b c) a := gfMul_right_comm b a c
    _ = gfMul a (gfMul b c) := gfMul_comm ..

/-- The chain of R120, evaluated at each of the 255 nonzero bytes. -/
theorem gfMul_gfInv {a : Byte} (h : a ≠ 0) : gfMul a (gfInv a) = 1 := by
  revert a; decide +kernel

theorem eq_zero_of_gfMul_eq_zero {a b : Byte} (h : gfMul a b = 0) : a = 0 ∨ b = 0 := by
  by_cases ha : a = 0
  · exact .inl ha
  · refine .inr ?_
    calc b = gfMul (gfMul a (gfInv a)) b := by rw [gfMul_gfInv ha, gfMul_one_left]
      _ = gfMul (gfMul a b) (gfInv a) := gfMul_right_comm ..
      _ = 0 := by rw [h, gfMul_zero_left]

theorem gfMul_left_cancel {a b c : Byte} (ha : a ≠ 0) (h : gfMul a b = gfMul a c) : b = c := by
  have product : gfMul a (b ^^^ c) = 0 := by rw [gfMul_xor_right, h]; exact BitVec.xor_self
  exact BitVec.xor_eq_zero_iff.mp ((eq_zero_of_gfMul_eq_zero product).resolve_left ha)

/-! ### Repeated doubling -/

theorem iterate_xtime (n : Nat) (a : Byte) : Nat.iterate xtime n a = gfMul a (Nat.iterate xtime n 1) := by
  induction n with
  | zero => exact (gfMul_one_right a).symm
  | succ n ih => rw [Function.iterate_succ_apply', Function.iterate_succ_apply', ih, gfMul_xtime_right]

theorem iterate_xtime_eq_self_iff (n : Nat) {a : Byte} (ha : a ≠ 0) :
    Nat.iterate xtime n a = a ↔ Nat.iterate xtime n 1 = 1 := by
  rw [iterate_xtime]
  refine ⟨fun h => gfMul_left_cancel ha (h.trans (gfMul_one_right a).symm), fun h => by rw [h, gfMul_one_right]⟩

theorem xtime_ne_zero {a : Byte} (ha : a ≠ 0) : xtime a ≠ 0 := by
  rw [← gfMul_two_right]
  exact fun h => (eq_zero_of_gfMul_eq_zero h).elim ha (by decide)

theorem iterate_xtime_ne_zero (n : Nat) {a : Byte} (ha : a ≠ 0) : Nat.iterate xtime n a ≠ 0 := by
  induction n with
  | zero => exact ha
  | succ n ih => rw [Function.iterate_succ_apply']; exact xtime_ne_zero ih

/-- Settles O51: the product laws, and 1 comes back after 51 doublings and not before, so every nonzero byte does. -/
theorem fieldLawsHold : Obligations.FieldLawsHold := by
  have eight : Nat.iterate xtime 8 1 = 0x1B := by decide
  have order : Nat.iterate xtime 51 1 = 1 := by decide +kernel
  have minimal : ∀ n < 51, 0 < n → Nat.iterate xtime n 1 ≠ 1 := by decide +kernel
  refine ⟨gfMul_comm, gfMul_one_right, fun a => BitVec.xor_self, gfMul_zero_right, gfMul_assoc, gfMul_xor_right,
    fun a => (gfMul_two_right a).symm, fun a b => eq_zero_of_gfMul_eq_zero, fun a => ?_, fun a ha => ⟨?_, ?_, ?_⟩⟩
  · rw [iterate_xtime, eight]
  · exact (iterate_xtime_eq_self_iff 51 ha).mpr order
  · exact fun n pos below => (iterate_xtime_eq_self_iff n ha).not.mpr (minimal n below pos)
  · exact fun n => iterate_xtime_ne_zero n ha

/-! ## The inverse (R120 to R122) -/

/-- The product of `n` factors `a`. -/
def gfPow (a : Byte) (n : Nat) : Byte := Nat.iterate (fun t => gfMul t a) n 1

theorem gfPow_succ (a : Byte) (n : Nat) : gfPow a (n + 1) = gfMul (gfPow a n) a := Function.iterate_succ_apply' ..

theorem gfPow_one (a : Byte) : gfPow a 1 = a := gfMul_one_left a

theorem gfMul_gfPow (a : Byte) (m n : Nat) : gfMul (gfPow a m) (gfPow a n) = gfPow a (m + n) := by
  induction n with
  | zero => exact gfMul_one_right _
  | succ n ih => rw [gfPow_succ, ← gfMul_assoc, ih, ← Nat.add_assoc, gfPow_succ]

theorem gfInv_eq_gfPow (a : Byte) : gfInv a = gfPow a 254 := by
  have chain : gfInv (gfPow a 1) = gfPow a 254 := by simp only [gfInv, gfMul_gfPow, Nat.reduceAdd]
  rwa [gfPow_one] at chain

theorem gfInv_ne_zero {a : Byte} (ha : a ≠ 0) : gfInv a ≠ 0 := by
  intro h
  have product := gfMul_gfInv ha
  rw [h, gfMul_zero_right] at product
  exact absurd product (by decide)

theorem gfInv_gfInv (a : Byte) : gfInv (gfInv a) = a := by
  by_cases ha : a = 0
  · rw [ha, gfInv_zero, gfInv_zero]
  · refine gfMul_left_cancel (gfInv_ne_zero ha) ?_
    rw [gfMul_gfInv (gfInv_ne_zero ha), gfMul_comm, gfMul_gfInv ha]

/-- In characteristic 2, a square root of 1 is 1. -/
theorem eq_one_of_gfMul_self_eq_one {a : Byte} (h : gfMul a a = 1) : a = 1 := by
  have square : gfMul (a ^^^ 1) (a ^^^ 1) = 0 := by
    rw [gfMul_xor_left, gfMul_xor_right, h, gfMul_one_left, gfMul_one_right, BitVec.xor_comm a]
    exact BitVec.xor_self
  exact BitVec.xor_eq_zero_iff.mp ((eq_zero_of_gfMul_eq_zero square).elim id id)

theorem gfInv_bijective : Function.Bijective gfInv := Function.Involutive.bijective gfInv_gfInv

/-- Settles O52: the chain of R120 is the power 254, it gives inverses, and an inverse is inverted by cancelling. -/
theorem inverseLawsHold : Obligations.InverseLawsHold := by
  refine ⟨fun a => gfMul_gfInv, gfInv_zero, fun a => ?power, gfInv_gfInv, gfInv_bijective, fun a => ⟨fun h => ?fixed, ?_⟩⟩
  case power =>
    calc gfInv a = gfPow a (253 + 1) := gfInv_eq_gfPow a
      _ = Nat.iterate (fun t => gfMul t a) 253 (gfMul 1 a) := Function.iterate_succ_apply ..
      _ = Nat.iterate (fun t => gfMul t a) 253 a := by rw [gfMul_one_left]
  case fixed =>
    by_cases ha : a = 0
    · exact .inl ha
    · have square := gfMul_gfInv ha
      rw [h] at square
      exact .inr (eq_one_of_gfMul_self_eq_one square)
  · rintro (rfl | rfl)
    · exact gfInv_zero
    · exact gfInv_one

/-! ## The S-box (R130 to R133) -/

/-- The inverse of the affine transform. -/
def sboxAffineInv (b : Byte) : Byte := rotl8 b 1 ^^^ rotl8 b 3 ^^^ rotl8 b 6 ^^^ 0x05

theorem sboxAffine_bijective : Function.Bijective sboxAffine := by
  have left : ∀ b, sboxAffineInv (sboxAffine b) = b := by decide +kernel
  have right : ∀ b, sboxAffine (sboxAffineInv b) = b := by decide +kernel
  exact Function.bijective_iff_has_inverse.mpr ⟨sboxAffineInv, left, right⟩

theorem sbox_bijective : Function.Bijective sbox := sboxAffine_bijective.comp gfInv_bijective

theorem printedSbox_getElem? (a : Byte) : printedSbox[a.toNat]? = some (sbox a) := by
  revert a; decide +kernel

/-- Settles O53: the printed table is that of `sbox`, and in it no entry is its own index or the complement of it. -/
theorem sboxIsTheStandardTable : Obligations.SboxIsTheStandardTable := by
  have noFixed : ∀ a : Byte, printedSbox[a.toNat]? ≠ some a := by decide +kernel
  have noComplement : ∀ a : Byte, printedSbox[a.toNat]? ≠ some (~~~a) := by decide +kernel
  refine ⟨sbox_bijective, fun a h => ?_, fun a h => ?_, by decide +kernel, printedSbox_getElem?⟩
  · exact noFixed a ((printedSbox_getElem? a).trans (congrArg some h))
  · exact noComplement a ((printedSbox_getElem? a).trans (congrArg some h))

/-! ## The round constants (R160, R161) -/

/-- Settles O56: the recurrence is the definition's, and the values follow from it. -/
theorem roundConstantsAreTheSpecs : Obligations.RoundConstantsAreTheSpecs := by
  have doubles (i : Nat) (lower : 2 ≤ i) : rcon i = xtime (rcon (i - 1)) := by
    obtain ⟨n, rfl⟩ := Nat.exists_eq_add_of_le' lower
    rfl
  exact ⟨rfl, fun i lower _ => doubles i lower, by decide⟩

/-! ## The product of polynomials (R103) -/

open Polynomial

/-- The polynomial by which products are reduced. -/
noncomputable def reductionPoly : (ZMod 2)[X] := X ^ 8 + X ^ 4 + X ^ 3 + X + 1

/-- The polynomial of the bits below `n` of `b`. -/
noncomputable def lowPoly (b : Byte) (n : Nat) : (ZMod 2)[X] := ∑ i ∈ Finset.range n, if b.getLsbD i then X ^ i else 0

theorem lowPoly_succ (b : Byte) (n : Nat) : lowPoly b (n + 1) = lowPoly b n + if b.getLsbD n then X ^ n else 0 :=
  Finset.sum_range_succ ..

theorem lowPoly_eight (b : Byte) : lowPoly b 8 = bytePoly b := rfl

theorem bytePoly_zero : bytePoly 0 = 0 := by simp [bytePoly]

theorem bytePoly_xor (a b : Byte) : bytePoly (a ^^^ b) = bytePoly a + bytePoly b := by
  have bit (p q : Bool) (m : (ZMod 2)[X]) :
      (if (p ^^ q) then m else 0) = (if p then m else 0) + (if q then m else 0) := by
    cases p <;> cases q <;> simp [CharTwo.add_self_eq_zero]
  simp only [bytePoly, BitVec.getLsbD_xor, bit, Finset.sum_add_distrib]

/-- Every bit moves up by one place, and bit 7 moves out of the byte. -/
theorem X_mul_bytePoly (a : Byte) : X * bytePoly a = bytePoly (a <<< 1) + if a.getLsbD 7 then X ^ 8 else 0 := by
  have moves : ∀ i ∈ Finset.range 7, (if a.getLsbD i then (X : (ZMod 2)[X]) ^ (i + 1) else 0) =
      if (a <<< 1).getLsbD (i + 1) then X ^ (i + 1) else 0 := by
    intro i hi
    have inByte : i + 1 < 8 := by have := Finset.mem_range.mp hi; omega
    simp [inByte, BitVec.getLsbD_eq_getElem (Nat.lt_of_succ_lt inByte)]
  have low : (a <<< 1).getLsbD 0 = false := by simp
  simp only [bytePoly, Finset.mul_sum, mul_ite, mul_zero, ← pow_succ']
  rw [Finset.sum_range_succ, Finset.sum_range_succ' _ 7, Finset.sum_congr rfl moves, low]
  simp

theorem X_pow_eight : (X : (ZMod 2)[X]) ^ 8 = reductionPoly + bytePoly 0x1B := by
  have reduction : bytePoly 0x1B = 1 + X + X ^ 3 + X ^ 4 := by simp [bytePoly, Finset.sum_range_succ]
  calc (X : (ZMod 2)[X]) ^ 8 = X ^ 8 + ((1 + X + X ^ 3 + X ^ 4) + (1 + X + X ^ 3 + X ^ 4)) := by
        rw [CharTwo.add_self_eq_zero, add_zero]
    _ = reductionPoly + bytePoly 0x1B := by rw [reduction, reductionPoly]; ring

section
variable {R : Type} [CommRing R] (φ : (ZMod 2)[X] →+* R)

/-- Doubling is multiplication by X, reduced once if it overflows. -/
theorem map_bytePoly_xtime (modulus : φ reductionPoly = 0) (a : Byte) :
    φ (bytePoly (xtime a)) = φ X * φ (bytePoly a) := by
  rw [← map_mul, X_mul_bytePoly, xtime, bytePoly_xor, map_add, map_add]
  split
  · rw [X_pow_eight, map_add, modulus, zero_add]
  · exact congrArg (fun p => φ (bytePoly (a <<< 1)) + φ p) bytePoly_zero

theorem map_bytePoly_gfMulStep (modulus : φ reductionPoly = 0) (a b : Byte) (i : Nat) (t : Byte) :
    φ (bytePoly (gfMulStep a b i t)) =
      φ X * φ (bytePoly t) + if b.getLsbD i then φ (bytePoly a) else 0 := by
  unfold gfMulStep
  split
  · rw [bytePoly_xor, map_add, map_bytePoly_xtime φ modulus]
  · rw [map_bytePoly_xtime φ modulus, add_zero]

/-- The accumulator before the bits below `n` is moved up by `n` places, and those bits times `a` are added. -/
theorem map_bytePoly_gfMulBits (modulus : φ reductionPoly = 0) (a b : Byte) (n : Nat) (t : Byte) :
    φ (bytePoly (gfMulBits a b n t)) = φ (bytePoly t) * φ X ^ n + φ (bytePoly a) * φ (lowPoly b n) := by
  induction n generalizing t with
  | zero => simp [gfMulBits, lowPoly]
  | succ n ih =>
    rw [gfMulBits, ih, map_bytePoly_gfMulStep φ modulus, lowPoly_succ, map_add]
    split
    · rw [map_pow]; ring
    · rw [map_zero]; ring

theorem map_bytePoly_gfMul (modulus : φ reductionPoly = 0) (a b : Byte) :
    φ (bytePoly a * bytePoly b) = φ (bytePoly (gfMul a b)) := by
  rw [gfMul, map_bytePoly_gfMulBits φ modulus, bytePoly_zero, map_zero, zero_mul, zero_add, lowPoly_eight, map_mul]

end

/-- Settles O50: modulo the reduction polynomial each iteration of R102 is exact. -/
theorem productIsReducedPolynomialProduct : Obligations.ProductIsReducedPolynomialProduct := fun a b =>
  (AdjoinRoot.mk_eq_mk (f := reductionPoly)).mp (map_bytePoly_gfMul _ AdjoinRoot.mk_self a b)

end Sys2Proof.Machine
end

section
/-! PROOFS. The laws of the transforms, the word recurrence of the key schedule, and the cipher as eleven rounds (R149, R164,
R181). -/

namespace Sys2Proof.Machine

/-! ## The transforms (R149) -/

/-- Row `r` of the shifted block is row `r` with its columns taken in another order. -/
theorem shiftRows_row_perm (s : Block) (r : Fin 4) :
    ((List.finRange 4).map ((shiftRows s).cell r)).Perm ((List.finRange 4).map (s.cell r)) := by
  have columns : ∀ r : Fin 4, ((List.finRange 4).map (· + r)).Perm (List.finRange 4) := by decide
  have row : (shiftRows s).cell r = s.cell r ∘ (· + r) := funext fun c => shiftRows_cell s r c
  rw [row, ← List.map_map]
  exact (columns r).map _

theorem subBytes_bijective : Function.Bijective subBytes := by
  constructor
  · intro s t h
    refine cell_ext fun r c => sbox_bijective.injective ?_
    rw [← subBytes_cell, ← subBytes_cell, h]
  · intro t
    have preimage (r c : Fin 4) : ∃ b, sbox b = t.cell r c := sbox_bijective.surjective _
    choose f hf using preimage
    exact ⟨.ofCells f, cell_ext fun r c => by rw [subBytes_cell, cell_ofCells, hf]⟩

theorem mixColumns_keyAdd (s u : Block) : mixColumns (keyAdd s u) = keyAdd (mixColumns s) (mixColumns u) := by
  refine cell_ext fun r c => ?_
  simp only [mixColumns_cell, keyAdd_cell, gfMul_xor_right]
  ac_rfl

theorem subBytes_shiftRows (s : Block) : subBytes (shiftRows s) = shiftRows (subBytes s) :=
  cell_ext fun r c => by rw [subBytes_cell, shiftRows_cell, shiftRows_cell, subBytes_cell]

/-- Settles O55: each law holds cell by cell, but for the multiset of bytes, which is kept row by row. -/
theorem transformLawsHold : Obligations.TransformLawsHold :=
  ⟨shiftRows_four_times, fun s => List.Perm.flatMap_left _ fun r _ => shiftRows_row_perm s r, subBytes_bijective,
    mixColumns_keyAdd, keyAdd_keyAdd_self, subBytes_shiftRows⟩

/-! ## The key schedule (R163, R164) -/

theorem zext32_shiftLeft_24 (b : Byte) : zext32 b <<< 24 = wordOf b 0 0 0 := by
  revert b; decide +kernel

/-- The first word of a round key: RotWord, SubWord and the round constant are applied to the word before it. -/
theorem roundKey_succ_first_word (k : Block) (m : Nat) : (roundKey k (m + 1)).word 0 =
    (roundKey k m).word 0 ^^^ (subWord (rotUp ((roundKey k m).word 3)) ^^^ wordOf (rcon (m + 1)) 0 0 0) := by
  rw [← zext32_shiftLeft_24]
  exact BitVec.xor_comm ..

/-- Each other word is the word before it, plus the word four places back. -/
theorem roundKey_succ_next_word (k : Block) (m : Nat) {c d : Fin 4} (h : c.val = d.val + 1) :
    (roundKey k (m + 1)).word c = (roundKey k m).word c ^^^ (roundKey k (m + 1)).word d := by
  obtain ⟨rfl, rfl⟩ | ⟨rfl, rfl⟩ | ⟨rfl, rfl⟩ : (c = 1 ∧ d = 0) ∨ (c = 2 ∧ d = 1) ∨ (c = 3 ∧ d = 2) := by omega
  all_goals exact BitVec.xor_comm ..

theorem expandKey_getElem_eq (k : Block) {n i : Nat} (c : Fin 4) (hn : n < 44) (h : n = 4 * i + c.val) :
    (expandKey k)[n] = (roundKey k i).word c := by
  subst h; exact expandKey_getElem k i c hn

/-- Settles O57: word `4 * (m + 1) + c` of the expansion is word `c` of round key `m + 1`. -/
theorem keyScheduleFollowsTheWordRecurrence : Obligations.KeyScheduleFollowsTheWordRecurrence := by
  refine ⟨fun k c => ?key, fun k n h lower notFirst => ?next, fun k n h lower isFirst => ?first⟩
  case key => exact expandKey_getElem_eq k (i := 0) c _ (by omega)
  case next =>
    obtain ⟨m, hm⟩ : ∃ m, n / 4 = m + 1 := ⟨n / 4 - 1, by omega⟩
    rw [expandKey_getElem_eq k (i := m + 1) ⟨n % 4, by omega⟩ h (by simp only; omega),
      expandKey_getElem_eq k (i := m) ⟨n % 4, by omega⟩ _ (by simp only; omega),
      expandKey_getElem_eq k (i := m + 1) ⟨n % 4 - 1, by omega⟩ _ (by simp only; omega)]
    exact roundKey_succ_next_word k m (by simp only; omega)
  case first =>
    obtain ⟨m, rfl⟩ : ∃ m, n = 4 * (m + 1) := ⟨n / 4 - 1, by omega⟩
    rw [expandKey_getElem_eq k (i := m + 1) 0 h rfl, expandKey_getElem_eq k (i := m) 0 _ (by omega),
      expandKey_getElem_eq k (i := m) 3 _ (by change _ = 4 * m + 3; omega), Nat.mul_div_cancel_left _ (by decide),
      roundKey_succ_first_word]
    simp only [subWord, rotUp, byteOf_wordOf_0, byteOf_wordOf_1, byteOf_wordOf_2, byteOf_wordOf_3]

/-! ## The cipher (R181) -/

theorem cipherRound_eq_fullRound (s : Block) (rk : Vector Word 44) {r : Fin 11} (lower : 1 ≤ r.val) (upper : r.val ≤ 9) :
    cipherRound s rk r = fullRound rk s r := cipherRound_middle s rk lower upper

/-- Settles O58: round 0 adds the key, rounds 1 to 9 are full, round 10 mixes no columns. -/
theorem cipherIsElevenRounds : Obligations.CipherIsElevenRounds := by
  intro k p
  have rounds : List.finRange 11 = 0 :: ([1, 2, 3, 4, 5, 6, 7, 8, 9] ++ [10]) := by decide
  have full : ∀ r ∈ ([1, 2, 3, 4, 5, 6, 7, 8, 9] : List (Fin 11)), 1 ≤ r.val ∧ r.val ≤ 9 := by decide
  rw [rounds, List.foldl_cons, List.foldl_append, cipherRound_first, List.foldl_cons, List.foldl_nil, cipherRound_last,
    List.foldl_ext _ (fullRound (expandKey k)) _ fun s r hr =>
      cipherRound_eq_fullRound s (expandKey k) (full r hr).1 (full r hr).2]
  rfl

end Sys2Proof.Machine
end

section
/-! PROOFS. Commands run one after the other from a loaded block: ENCRYPT and the two stepwise paths (R184, R185). -/

namespace Sys2Proof.Machine

/-- An idle block with KEY and STATE loaded. -/
structure Loaded (s : State) : Prop where
  idle : Idle s
  key : s.status.keyValid = 0xF
  state : s.status.stateValid = 0xF

theorem inFlight_keptByEffects (i : Instr) : KeptByEffects fun s u => u = inFlight i s where
  key := by rintro s _ rfl; rfl
  state := by rintro s _ rfl; rfl
  rk := by rintro s _ rfl; rfl
  setGfResult := by rintro s _ v rfl; rfl
  setState := by rintro s _ b rfl; rfl
  setRoundKeys := by rintro s _ r rfl; rfl

/-- A command whose checks hold is issued and completed in one go. -/
theorem runCommand_of_mayRun {i : Instr} {s u : State} (idle : Idle s) (mayRun : MayRun i s)
    (effect : effectOf i s = some u) : runCommand i s = .next (completed u) := by
  have completes := exec_completes (s := inFlight i s) rfl rfl (effectOf_map (inFlight_keptByEffects i) effect)
  rw [runCommand, exec_of_idle_of_mayRun idle mayRun]
  exact completes

theorem runCommands_cons_of_next {i : Instr} {s t : State} (h : runCommand i s = .next t) (is : List Instr) :
    runCommands (i :: is) s = runCommands is t := by
  rw [runCommands, h]

theorem runCommands_append {is js : List Instr} {s t : State} (h : runCommands is s = .next t) :
    runCommands (is ++ js) s = runCommands js t := by
  induction is generalizing s with
  | nil => cases h; rfl
  | cons i is ih =>
    rw [runCommands] at h
    split at h
    · next u hu => rw [List.cons_append, runCommands_cons_of_next hu, ih h]
    · cases h
    · cases h

/-! ## The block with its key expanded, and `b` in STATE -/

/-- `s` when the round keys of its KEY stand in RK, `b` in STATE, and nothing is in flight. -/
def withRoundKeys (s : State) (b : Block) : State :=
  completed { s with rk := expandKey s.key, state := b, status := { s.status with rkValid := true } }

theorem runCommand_encrypt {s : State} (loaded : Loaded s) :
    runCommand .encrypt s = .next (withRoundKeys s (cipher s.key s.state)) :=
  runCommand_of_mayRun loaded.idle ⟨rfl, fun _ => loaded.key, fun _ => loaded.state, nofun⟩ (effectOf_encrypt s)

theorem runCommand_expandKey {s : State} (loaded : Loaded s) :
    runCommand .expandKey s = .next (withRoundKeys s s.state) :=
  runCommand_of_mayRun loaded.idle ⟨rfl, fun _ => loaded.key, nofun, nofun⟩ rfl

theorem roundIndex_ofNat (r : Fin 11) : roundIndex (BitVec.ofNat 8 r.val) = some r := by
  revert r; decide

theorem toNat_ofNat_le (r : Fin 11) : (BitVec.ofNat 8 r.val).toNat ≤ 10 := by
  revert r; decide

section
variable {s : State} (loaded : Loaded s) (b : Block)
include loaded

/-- Every state command may run there, and it goes on with another block in STATE. -/
theorem runCommand_withRoundKeys {i : Instr} {b' : Block} (index : i.wellFormed = true)
    (effect : effectOf i (withRoundKeys s b) = some ((withRoundKeys s b).setState b')) :
    runCommand i (withRoundKeys s b) = .next (withRoundKeys s b') := by
  have idle : Idle (withRoundKeys s b) := ⟨rfl, loaded.idle.2⟩
  exact (runCommand_of_mayRun idle ⟨index, fun _ => loaded.key, fun _ => loaded.state, fun _ => rfl⟩ effect :)

theorem runCommand_subBytes : runCommand .subBytes (withRoundKeys s b) = .next (withRoundKeys s (subBytes b)) :=
  runCommand_withRoundKeys loaded b rfl rfl

theorem runCommand_shiftRows : runCommand .shiftRows (withRoundKeys s b) = .next (withRoundKeys s (shiftRows b)) :=
  runCommand_withRoundKeys loaded b rfl rfl

theorem runCommand_mixColumns : runCommand .mixColumns (withRoundKeys s b) = .next (withRoundKeys s (mixColumns b)) :=
  runCommand_withRoundKeys loaded b rfl rfl

theorem runCommand_addRoundKey (r : Fin 11) : runCommand (.addRoundKey (BitVec.ofNat 8 r.val)) (withRoundKeys s b) =
    .next (withRoundKeys s (keyAdd b (rkey (expandKey s.key) r))) :=
  runCommand_withRoundKeys loaded b (Instr.addRoundKey_wellFormed_of_le (toNat_ofNat_le r))
    (by rw [effectOf, roundIndex_ofNat]; rfl)

theorem runCommand_cipherRound (r : Fin 11) : runCommand (.cipherRound (BitVec.ofNat 8 r.val)) (withRoundKeys s b) =
    .next (withRoundKeys s (cipherRound b (expandKey s.key) r)) :=
  runCommand_withRoundKeys loaded b (Instr.cipherRound_wellFormed_of_le (toNat_ofNat_le r))
    (by rw [effectOf, roundIndex_ofNat]; rfl)

end

/-- Groups of commands, the group of `a` doing to STATE what `f · a` does to a block, make a fold of `f`. -/
theorem runCommands_flatMap {α : Type} {s : State} {group : α → List Instr} {f : Block → α → Block}
    (one : ∀ a b, runCommands (group a) (withRoundKeys s b) = .next (withRoundKeys s (f b a))) (as : List α) (b : Block) :
    runCommands (as.flatMap group) (withRoundKeys s b) = .next (withRoundKeys s (as.foldl f b)) := by
  induction as generalizing b with
  | nil => rfl
  | cons a as ih => rw [List.flatMap_cons, runCommands_append (one a b), ih, List.foldl_cons]

/-! ## The two stepwise paths (R184) -/

theorem runCommands_rounds {s : State} (loaded : Loaded s) (b : Block) :
    runCommands ((List.range 11).map fun r => .cipherRound (BitVec.ofNat 8 r)) (withRoundKeys s b) =
      .next (withRoundKeys s (cipher s.key b)) := by
  have groups : ((List.range 11).map fun r => Instr.cipherRound (BitVec.ofNat 8 r)) =
      (List.finRange 11).flatMap fun r => [.cipherRound (BitVec.ofNat 8 r.val)] := by decide
  rw [groups, runCommands_flatMap (f := fun b r => cipherRound b (expandKey s.key) r), cipherIsElevenRounds]
  intro r b
  exact runCommands_cons_of_next (runCommand_cipherRound loaded b r) []

/-- Rounds 1 to 9, each as its four transforms. -/
theorem runCommands_fullRounds {s : State} (loaded : Loaded s) (b : Block) :
    runCommands ((List.range 9).flatMap fun r =>
        [.subBytes, .shiftRows, .mixColumns, .addRoundKey (BitVec.ofNat 8 (r + 1))]) (withRoundKeys s b) =
      .next (withRoundKeys s ([1, 2, 3, 4, 5, 6, 7, 8, 9].foldl (fullRound (expandKey s.key)) b)) := by
  have groups : ((List.range 9).flatMap fun r =>
        [Instr.subBytes, .shiftRows, .mixColumns, .addRoundKey (BitVec.ofNat 8 (r + 1))]) =
      ([1, 2, 3, 4, 5, 6, 7, 8, 9] : List (Fin 11)).flatMap fun r =>
        [.subBytes, .shiftRows, .mixColumns, .addRoundKey (BitVec.ofNat 8 r.val)] := by decide
  rw [groups, runCommands_flatMap (f := fullRound (expandKey s.key))]
  intro r b
  simp only [runCommands, runCommand_subBytes loaded, runCommand_shiftRows loaded, runCommand_mixColumns loaded,
    runCommand_addRoundKey loaded, fullRound]

theorem runCommands_transforms {s : State} (loaded : Loaded s) (b : Block) :
    runCommands (.addRoundKey 0 ::
        ((List.range 9).flatMap fun r => [.subBytes, .shiftRows, .mixColumns, .addRoundKey (BitVec.ofNat 8 (r + 1))])
        ++ [.subBytes, .shiftRows, .addRoundKey 10]) (withRoundKeys s b) =
      .next (withRoundKeys s (cipher s.key b)) := by
  have first : runCommands [.addRoundKey 0] (withRoundKeys s b) =
      .next (withRoundKeys s (keyAdd b (rkey (expandKey s.key) 0))) :=
    runCommands_cons_of_next (runCommand_addRoundKey loaded b 0) []
  have last (b : Block) : runCommands [.subBytes, .shiftRows, .addRoundKey 10] (withRoundKeys s b) =
      .next (withRoundKeys s (keyAdd (shiftRows (subBytes b)) (rkey (expandKey s.key) 10))) :=
    calc runCommands [.subBytes, .shiftRows, .addRoundKey 10] (withRoundKeys s b)
      _ = runCommands [.shiftRows, .addRoundKey 10] (withRoundKeys s (subBytes b)) :=
        runCommands_cons_of_next (runCommand_subBytes loaded b) _
      _ = runCommands [.addRoundKey 10] (withRoundKeys s (shiftRows (subBytes b))) :=
        runCommands_cons_of_next (runCommand_shiftRows loaded _) _
      _ = .next (withRoundKeys s (keyAdd (shiftRows (subBytes b)) (rkey (expandKey s.key) 10))) :=
        runCommands_cons_of_next (runCommand_addRoundKey loaded _ 10) []
  exact (runCommands_append ((runCommands_append first).trans (runCommands_fullRounds loaded _))).trans (last _)

/-- Settles O47: EXPAND_KEY leaves the block of `withRoundKeys`, and from there both paths compute the cipher in STATE. -/
theorem roundByRoundEqualsEncrypt : Obligations.RoundByRoundEqualsEncrypt := by
  intro s idle key state
  have loaded : Loaded s := ⟨idle, key, state⟩
  refine ⟨_, runCommand_encrypt loaded, ?_, ?_⟩
  · exact (runCommands_cons_of_next (runCommand_expandKey loaded) _).trans (runCommands_rounds loaded s.state)
  · exact (runCommands_cons_of_next (runCommand_expandKey loaded) _).trans (runCommands_transforms loaded s.state)

/-- Settles O48: both runs end in the block of `withRoundKeys`, which is made from KEY and STATE. -/
theorem encryptDependsOnlyOnKeyAndState : Obligations.EncryptDependsOnlyOnKeyAndState := by
  intro s s' t t' idle idle' key key' state state' sameKey sameState run run'
  obtain rfl := Host.Outcome.next.inj ((runCommand_encrypt ⟨idle, key, state⟩).symm.trans run)
  obtain rfl := Host.Outcome.next.inj ((runCommand_encrypt ⟨idle', key', state'⟩).symm.trans run')
  exact ⟨congrArg₂ cipher sameKey sameState, rfl, congrArg expandKey sameKey⟩

end Sys2Proof.Machine
end

section
/-! PROOFS. The host's recipe for one block, run access by access (R88, R89, R243). -/

namespace Sys2Proof.Machine

/-! ## Runs in parts -/

/-- `n` steps take `s` to `t`. -/
def Runs (n : Nat) (s t : State) : Prop := Host.Core.run core n s = .next t

theorem Runs.refl (s : State) : Runs 0 s s := rfl

theorem Runs.cons {n : Nat} {s t u : State} (move : step s = .next t) (run : Runs n t u) : Runs (n + 1) s u :=
  (run_succ_of_step move n).trans run

theorem Runs.of_step {s t : State} (move : step s = .next t) : Runs 1 s t := Runs.cons move (Runs.refl t)

theorem Runs.trans {m n : Nat} {s t u : State} (h : Runs m s t) (h' : Runs n t u) : Runs (m + n) s u := by
  induction m generalizing s with
  | zero => cases h; rwa [Nat.zero_add]
  | succ m ih =>
    rw [Nat.succ_add]
    cases move : step s with
    | next v => exact Runs.cons move (ih ((run_succ_of_step move m).symm.trans h))
    | fault r => simp [Runs, Host.Core.run, core, move] at h
    | refused r => simp [Runs, Host.Core.run, core, move] at h

/-! ## The accesses of the recipe -/

theorem regAt_offset_key (j : Fin 4) : regAt (Reg.key j).offset = .key j := by
  revert j; decide

theorem regAt_offset_state (c : Fin 4) : regAt (Reg.state c).offset = .state c := by
  revert c; decide

theorem offset_key_aligned (j : Fin 4) : (Reg.key j).offset.toNat % 4 = 0 := by
  revert j; decide

theorem offset_state_aligned (c : Fin 4) : (Reg.state c).offset.toNat % 4 = 0 := by
  revert c; decide

theorem step_wr_key {s : State} {j : Fin 4} {v : Word} {rest : List Event} (event : s.events = wr (.key j) v :: rest)
    (hb : s.status.busy = false) : step s = .next ((answered s rest).writeKey j v) := by
  rw [step_of_write event (offset_key_aligned j), regAt_offset_key]
  exact writeReg_key_of_not_busy (by exact hb) j v

theorem step_wr_state {s : State} {c : Fin 4} {v : Word} {rest : List Event}
    (event : s.events = wr (.state c) v :: rest) (hb : s.status.busy = false) :
    step s = .next ((answered s rest).writeState c v) := by
  rw [step_of_write event (offset_state_aligned c), regAt_offset_state]
  exact writeReg_state_of_not_busy (by exact hb) c v

theorem step_rd_state {s : State} {c : Fin 4} {rest : List Event} (event : s.events = rd (.state c) :: rest)
    (hb : s.status.busy = false) : step s = .next (afterAccess s rest (.readData (s.state.word c))) :=
  step_of_read_of_specified event (offset_state_aligned c) (regAt_offset_state c) (.inl hb)

theorem step_rd_status {s : State} {rest : List Event} (event : s.events = rd .status :: rest) :
    step s = .next (afterAccess s rest (.readData s.status.toWord)) :=
  step_of_read_of_specified event rfl (r := .status) rfl (.inr rfl)

/-- `s` with `rest` still to come and `answers` given. -/
def movedOn (s : State) (rest : List Event) (answers : List Response) : State :=
  { s with events := rest, responses := answers }

theorem all_bits_written (x : BitVec 4) : x ||| 1#4 <<< 0 ||| 1#4 <<< 1 ||| 1#4 <<< 2 ||| 1#4 <<< 3 = 0xF := by
  revert x; decide

theorem run_loadKey {s : State} {rest : List Event} (k : Block) (events : s.events = loadKey k ++ rest)
    (hb : s.status.busy = false) :
    Runs 4 s (movedOn
      { s with key := k, status := { s.status with keyValid := 0xF, rkValid := false } } rest
      (List.replicate 4 .writeDone ++ s.responses)) := by
  rw [← all_bits_written s.status.keyValid]
  exact Runs.cons (step_wr_key events hb) <| Runs.cons (step_wr_key rfl hb) <| Runs.cons (step_wr_key rfl hb) <|
    Runs.cons (step_wr_key rfl hb) <| Runs.refl _

theorem run_loadBlock {s : State} {rest : List Event} (p : Block) (events : s.events = loadBlock p ++ rest)
    (hb : s.status.busy = false) :
    Runs 4 s (movedOn
      { s with state := p, status := { s.status with stateValid := 0xF } } rest
      (List.replicate 4 .writeDone ++ s.responses)) := by
  rw [← all_bits_written s.status.stateValid]
  exact Runs.cons (step_wr_state events hb) <| Runs.cons (step_wr_state rfl hb) <| Runs.cons (step_wr_state rfl hb) <|
    Runs.cons (step_wr_state rfl hb) <| Runs.refl _

theorem step_cmd_of_mayRun {s : State} {i : Instr} {rest : List Event} (event : s.events = cmd i :: rest) (idle : Idle s)
    (mayRun : MayRun i s) : step s = .next (movedOn (inFlight i s) rest (.writeDone :: s.responses)) := by
  have mayRun' : MayRun i (answered s rest) := ⟨mayRun.index, mayRun.key, mayRun.state, mayRun.roundKeys⟩
  calc step s = issue (encode i) (answered s rest) := step_of_write event rfl
    _ = exec i (answered s rest) := issue_of_idle_of_decode idle (decodeOfEncodeGivesTheCommand i)
    _ = .next (inFlight i (answered s rest)) := exec_of_idle_of_mayRun idle mayRun'

/-- The polls made before the completion change nothing but the answers. -/
theorem run_polls (n : Nat) {s : State} {rest : List Event} (events : s.events = List.replicate n (rd .status) ++ rest) :
    ∃ answers, Runs n s (movedOn s rest answers) := by
  induction n generalizing s with
  | zero =>
    refine ⟨s.responses, ?_⟩
    rw [movedOn, ← show s.events = rest from events]
    exact Runs.refl s
  | succ n ih =>
    obtain ⟨answers, run⟩ := ih (s := afterAccess s (List.replicate n (rd .status) ++ rest) (.readData s.status.toWord)) rfl
    exact ⟨answers, Runs.cons (step_rd_status events) run⟩

theorem step_complete {s u : State} {i : Instr} {rest : List Event} (event : s.events = .complete :: rest)
    (hb : s.status.busy = true) (pending : s.pending = some i) (effect : effectOf i (s.setEvents rest) = some u) :
    step s = .next (completed u) :=
  (completionStepRunsPending.1 s i rest event hb pending).trans (exec_completes hb pending effect)

theorem run_readBlock {s : State} {rest : List Event} (events : s.events = readBlock ++ rest)
    (hb : s.status.busy = false) :
    Runs 4 s (movedOn s rest (.readData s.state.w3 :: .readData s.state.w2 :: .readData s.state.w1 ::
      .readData s.state.w0 :: s.responses)) :=
  Runs.cons (step_rd_state events hb) <| Runs.cons (step_rd_state rfl hb) <| Runs.cons (step_rd_state rfl hb) <|
    Runs.cons (step_rd_state rfl hb) <| Runs.refl _

/-! ## The recipe (R243) -/

/-- `s` with `k` and `p` loaded, and so with no valid round keys. -/
def loadedWith (s : State) (k p : Block) : State :=
  { s with key := k, state := p, status := { s.status with keyValid := 0xF, stateValid := 0xF, rkValid := false } }

theorem run_load {s : State} {rest : List Event} (k p : Block) (events : s.events = loadKey k ++ (loadBlock p ++ rest))
    (hb : s.status.busy = false) : ∃ answers, Runs (4 + 4) s (movedOn (loadedWith s k p) rest answers) :=
  ⟨_, (run_loadKey k events hb).trans (run_loadBlock p rfl hb)⟩

theorem step_complete_encrypt (s : State) (rest : List Event) (answers : List Response) :
    step (movedOn (inFlight .encrypt s) (.complete :: rest) answers) =
      .next (movedOn (withRoundKeys s (cipher s.key s.state)) rest answers) :=
  step_complete rfl rfl rfl (effectOf_encrypt _)

/-- The answers to a last poll and the four reads of STATE, the latest first. -/
def readings (s : State) : List Response :=
  [.readData s.state.w3, .readData s.state.w2, .readData s.state.w1, .readData s.state.w0, .readData s.status.toWord]

theorem run_pollAndReadBlock (s : State) (answers : List Response) (hb : s.status.busy = false) :
    Runs (1 + 4) (movedOn s (rd .status :: readBlock) answers) (movedOn s [] (readings s ++ answers)) :=
  (Runs.of_step (step_rd_status rfl)).trans (run_readBlock rfl hb)

/-- From a loaded block: ENCRYPT is issued, polled, completed, polled once more, and STATE is read. -/
theorem run_encrypt_and_read {s : State} (n : Nat) (loaded : Loaded s)
    (events : s.events = runPolled .encrypt n ++ readBlock) :
    ∃ answers, Runs (1 + (n + (1 + (1 + 4)))) s (movedOn (withRoundKeys s (cipher s.key s.state)) []
      (readings (withRoundKeys s (cipher s.key s.state)) ++ answers)) := by
  have mayRun : MayRun .encrypt s := ⟨rfl, fun _ => loaded.key, fun _ => loaded.state, nofun⟩
  have issued := step_cmd_of_mayRun (rest := poll n ++ readBlock) events loaded.idle mayRun
  obtain ⟨answers, polled⟩ := run_polls n (s := movedOn (inFlight .encrypt s) (poll n ++ readBlock) (.writeDone :: s.responses))
    (rest := .complete :: rd .status :: readBlock) (by simp [movedOn, poll])
  exact ⟨answers, (Runs.of_step issued).trans <| polled.trans <|
    (Runs.of_step (step_complete_encrypt s _ answers)).trans (run_pollAndReadBlock _ answers rfl)⟩

/-- Settles O49: loading KEY and STATE from an idle block makes it a loaded one, and the rest is `run_encrypt_and_read`. -/
theorem encryptionRecipeReadsTheCiphertext : Obligations.EncryptionRecipeReadsTheCiphertext := by
  intro s k p n idle
  obtain ⟨answers, load⟩ := run_load
    (s := { s with events := loadKey k ++ loadBlock p ++ runPolled .encrypt n ++ readBlock })
    (rest := runPolled .encrypt n ++ readBlock) k p (by simp only [List.append_assoc]) idle.1
  have loaded : Loaded (movedOn (loadedWith s k p) (runPolled .encrypt n ++ readBlock) answers) := ⟨idle, rfl, rfl⟩
  obtain ⟨answers', run⟩ := run_encrypt_and_read n loaded rfl
  have length : 15 + n = 4 + 4 + (1 + (n + (1 + (1 + 4)))) := by omega
  rw [length]
  exact ⟨_, load.trans run, rfl, rfl, idle.2, rfl, rfl, rfl⟩

end Sys2Proof.Machine
end
